-- ==== Sys2Proof/Word.lean ====
section
/-! DEFINITION. The words of the ring line: bytes, node addresses, 16-bit words. -/

namespace Sys2Proof

/-- One byte of a frame. -/
abbrev Byte := BitVec 8

/-- A ring address: bits 5 to 0 of a destination or source byte (R198, R200). -/
abbrev Node := BitVec 6

/-- A word of the configuration memory, a check, an owner code. -/
abbrev Half := BitVec 16

/-- One image or glyph column: seven dots, the top one in the most significant place (R202). -/
abbrev Column := BitVec 7

/-- Destination 63 addresses all nodes (R126). -/
def broadcast : Node := 63

/-- The part's own node while LOADING, and the default own node (R130, R195). -/
def defaultNode : Node := 62

end Sys2Proof
end

