-- ==== Sys2Proof/Syntax.lean ====
section
/-! DEFINITION. The commands of the block: one constructor per row of opcode_table.json, with the
row's operands. A report command is one intact REPORT frame from node `src` with sequence `seq`; a
request command is one intact REQUEST frame from node `src`, addressed to the part. -/

namespace Sys2Proof

/-- The path a frame arrives by: the ring input, or the local loop of R141. -/
inductive RxPath where
  | ring
  | loop
  deriving DecidableEq, Repr

/-- Which of the two resets of R191 is released. -/
inductive ResetSource where
  /-- the internal power-on reset ends -/
  | internal
  /-- the reset input is released -/
  | pin
  deriving DecidableEq, Repr

/-- The identity fields of a TAG as they stand in the frame (R201), before the range test of R48. -/
structure TagFields where
  serial    : BitVec 32
  owner     : Half
  cls       : Byte
  lastYear  : Byte
  lastMonth : Byte
  tare      : Half
  mfgYear   : Byte
  deriving DecidableEq, Repr

/-- A tag read: GOOD or WEAK with the identity fields, or NOREAD (R47). -/
inductive TagRead where
  | good (f : TagFields)
  | weak (f : TagFields)
  | noread
  deriving DecidableEq, Repr

/-- A track reference as frames carry it: entry index and generation (R200). -/
structure WireRef where
  index : Byte
  gen   : Byte
  deriving DecidableEq, Repr

/-- The commands. -/
inductive Instr where
  -- start-up and supply
  | powerOnReset
  | pinReset
  | resetRelease (r : ResetSource)
  | endOfLoading (words : List Half)
  -- the ring port
  | frameReceive (path : RxPath) (bytes : List Byte)
  | requestInLoading (dst src : Node) (seq : Byte) (payload : List Byte)
  | orderReturn (path : RxPath) (seq : Byte)
  | proveReturn (path : RxPath) (seq : Byte) (payload : List Byte)
  | transmitGap
  | ringReturnTimerExpiry (place : Nat)
  | proveIntervalExpiry
  -- the role unit
  | beaconTimerExpiry
  | partnerBeacon (seq role occupancy unfit : Byte)
  | partnerSeenTimerExpiry
  | partnerOrder (dst : Node) (seq : Byte) (payload : List Byte)
  | expectationTimerExpiry (place : Nat)
  -- intake and the gates
  | inductionTag (src : Node) (seq : Byte) (tag : TagRead)
  | weight (src : Node) (seq : Byte) (grams : BitVec 32) (stable : Bool)
  | grade (src : Node) (seq grade : Byte)
  | atGate (src : Node) (seq arrival : Byte)
  | passed (src : Node) (seq route : Byte) (ref : WireRef)
  -- the test bank
  | loaded (src : Node) (seq head : Byte) (ref : WireRef)
  | loadTimerExpiry
  | pressure (src : Node) (seq : Byte) (bar : Half)
  | expansion (src : Node) (seq : Byte) (value : Half)
  | rampTimerExpiry (head : Fin 4)
  | holdTimerExpiry (head : Fin 4)
  | ventTimerExpiry (head : Fin 4)
  | settleTimerExpiry (head : Fin 4)
  | measureTimerExpiry (head : Fin 4)
  | unloaded (src : Node) (seq : Byte)
  | headFault (src : Node) (seq : Byte)
  -- the finish cell
  | stampTag (src : Node) (seq : Byte) (tag : TagRead)
  | stampDone (src : Node) (seq : Byte) (ref : WireRef)
  | stampFault (src : Node) (seq : Byte) (ref : WireRef)
  -- jams
  | jam (src : Node) (seq : Byte)
  | clear (src : Node) (seq : Byte)
  | jamQualifyExpiry (station : Fin 16)
  | jamGapExpiry (station : Fin 16)
  | clearQualifyExpiry (station : Fin 16)
  -- requests
  | status (src : Node) (seq part : Byte)
  | select (src : Node) (seq table index : Byte)
  | read (src : Node) (seq : Byte)
  | write (src : Node) (seq : Byte) (entry : List Byte)
  | trackRead (src : Node) (seq index : Byte)
  | counters (src : Node) (seq group : Byte)
  | clearCounters (src : Node) (seq : Byte)
  | setDate (src : Node) (seq year month : Byte)
  | setRole (src : Node) (seq role : Byte)
  | setLoop (src : Node) (seq mode : Byte)
  | retest (src : Node) (seq head : Byte)
  | abort (src : Node) (seq head : Byte)
  | disable (src : Node) (seq head : Byte)
  | enable (src : Node) (seq head : Byte)
  | trackHold (src : Node) (seq : Byte) (ref : WireRef)
  | haltManualOn (src : Node) (seq : Byte)
  | haltManualOff (src : Node) (seq : Byte)
  | clearOverrun (src : Node) (seq : Byte)
  | proveStart (src : Node) (seq : Byte)
  | proveStop (src : Node) (seq : Byte)
  | proveInsert (src : Node) (seq : Byte)
  | setPlantMark (src : Node) (seq c1 c2 c3 c4 : Byte)
  | restart (src : Node) (seq : Byte)
  | supplyLoss
  deriving DecidableEq, Repr

end Sys2Proof
end

