-- ==== Sys2Proof/Config.lean ====
section
/-! DEFINITION. The free values: what the spec leaves open and the part nevertheless answers with.
None has a body that a proof could see. The values an implementation reads at start-up are state
(`Machine.Configuration`), since the part reads them from its configuration memory. -/

namespace Sys2Proof.Config

/-- R20: whether a waiting RESULT notice, rather than the event notice of the same event, is the first
to reach the notice queue. DESIGN CHOICE (log 7): left free, read at the model's counter. -/
opaque resultFirst : Nat → Bool

/-- R205: what TRACK_READ sends in field `k` of a part of the record that is absent, where the layout
states no value. Argument: the model's counter, the field. DESIGN CHOICE (log 8). -/
opaque absentField : Nat → Nat → Nat

/-- R204: what STATUS sends for the served head of an idle loader (field 0) and for the month of an
unset date (field 1). DESIGN CHOICE (log 8). -/
opaque statusField : Nat → Nat → Nat

/-- R206: the test month of a RESULT notice whose test date is absent. DESIGN CHOICE (log 8). -/
opaque absentMonth : Nat → Byte

/-- R166: the occupancy recorded from a beacon whose occupancy byte lies above 80. DESIGN CHOICE (log 9). -/
opaque oddOccupancy : Nat → Byte → Nat

/-- R166: the unfit flag recorded from a beacon whose unfit byte is neither 0 nor 1. DESIGN CHOICE (log 9). -/
opaque oddUnfit : Nat → Byte → Bool

/-- R199: the request kind echoed to a request that carries no kind byte. DESIGN CHOICE (log 10). -/
opaque missingKind : Nat → Byte

/-- R143: the error count of a returned prove frame whose payload is not 32 bytes. DESIGN CHOICE (log 11). -/
opaque oddProveErrors : Nat → List Byte → Nat

end Sys2Proof.Config
end

