-- ==== Sys2Proof/Machine/Bytes.lean ====
section
/-! DEFINITION. Bits and bytes on the lines: packing of fields, byte order, the frame check, the prove
generator (R127, R142, R198). -/

namespace Sys2Proof.Machine

/-- A number's low `w` bits, most significant first. -/
def bitsOf : Nat → Nat → List Bool
  | 0, _ => []
  | w + 1, v => v.testBit w :: bitsOf w v

/-- The number whose bits, most significant first, are given. -/
def natOfBits (bits : List Bool) : Nat :=
  bits.foldl (fun n b => 2 * n + b.toNat) 0

/-- One byte from its bits, most significant first. -/
def byteOfBits (bits : List Bool) : Byte := BitVec.ofNat 8 (natOfBits bits)

/-- R198: bits fill bytes most significant bit first; a last byte that is not full is completed with 0. -/
def bytesOfBits : List Bool → List Byte
  | a :: b :: c :: d :: e :: f :: g :: h :: rest =>
      byteOfBits [a, b, c, d, e, f, g, h] :: bytesOfBits rest
  | [] => []
  | short => [byteOfBits (short ++ List.replicate (8 - short.length) false)]

/-- R198: fields (width, value) packed one after another. -/
def packBits (fields : List (Nat × Nat)) : List Bool := fields.flatMap fun f => bitsOf f.1 f.2

/-- R198: a layout's fields as bytes. -/
def pack (fields : List (Nat × Nat)) : List Byte := bytesOfBits (packBits fields)

/-- A number as one byte. -/
def byte (n : Nat) : Byte := BitVec.ofNat 8 n

/-- R198: a 16-bit field goes out most significant byte first. -/
def half (h : Half) : List Byte := [h.extractLsb' 8 8, h.extractLsb' 0 8]

/-- A number as a 16-bit field. -/
def half' (n : Nat) : List Byte := half (BitVec.ofNat 16 n)

/-- R198: a 32-bit field, most significant byte first. -/
def full (w : BitVec 32) : List Byte :=
  [w.extractLsb' 24 8, w.extractLsb' 16 8, w.extractLsb' 8 8, w.extractLsb' 0 8]

/-- A number as a 32-bit field. -/
def full' (n : Nat) : List Byte := full (BitVec.ofNat 32 n)

/-- Two bytes as a 16-bit field. -/
def unhalf (a b : Byte) : Half := a ++ b

/-- Four bytes as a 32-bit field. -/
def unfull (a b c d : Byte) : BitVec 32 := a ++ b ++ c ++ d

/-- A truth value as a one-bit field's number. -/
def flag (b : Bool) : Nat := b.toNat

/-! ## The frame check (R127, R198) -/

/-- R198 step 2: the check register takes one bit. -/
def crcBit (r : Half) (b : Bool) : Half :=
  if r.msb ^^ b then (r <<< 1) ^^^ 0x1021#16 else r <<< 1

/-- R198 step 2: the check register takes a byte, most significant bit first. -/
def crcByte (r : Half) (x : Byte) : Half := (bitsOf 8 x.toNat).foldl crcBit r

/-- R127, R198: the check of a header and payload: preset to all ones, no final inversion. -/
def frameCheck (bytes : List Byte) : Half := bytes.foldl crcByte (BitVec.allOnes 16)

/-! ## Frames (R126, R198, R200) -/

/-- A frame with its header fields; the kind is kept as its code. -/
structure Frame where
  dst     : Node
  src     : Node
  kind    : Byte
  seq     : Byte
  payload : List Byte
  deriving DecidableEq, Repr

/-- R200: header and payload. -/
def Frame.body (f : Frame) : List Byte :=
  f.dst.zeroExtend 8 :: f.src.zeroExtend 8 :: f.kind :: f.seq :: byte f.payload.length :: f.payload

/-- R198: the run of bytes of a frame, the check high byte first. -/
def Frame.bytes (f : Frame) : List Byte := f.body ++ half (frameCheck f.body)

/-- R200: the frame kinds by code. -/
def kindReport : Byte := 1
def kindOrder : Byte := 2
def kindRequest : Byte := 3
def kindReply : Byte := 4
def kindNotice : Byte := 5
def kindBeacon : Byte := 6
def kindProve : Byte := 7

/-! ## The prove generator (R142) -/

/-- One step of the 15-stage register; stage k stands in bit k - 1. -/
def proveStep (g : BitVec 15) : Bool × BitVec 15 :=
  let b := g.getLsbD 14 ^^ g.getLsbD 13
  (b, (g <<< 1) ||| (BitVec.ofBool b).zeroExtend 15)

/-- The next `n` output bits and the register after them. -/
def proveBits : Nat → BitVec 15 → List Bool × BitVec 15
  | 0, g => ([], g)
  | n + 1, g =>
    let (b, g') := proveStep g
    let (bs, g'') := proveBits n g'
    (b :: bs, g'')

/-- The register advanced by the bits of one frame. -/
def proveSkip (g : BitVec 15) : BitVec 15 := (proveBits 256 g).2

/-- The register advanced by `n` frames. -/
def proveSkips : Nat → BitVec 15 → BitVec 15
  | 0, g => g
  | n + 1, g => proveSkips n (proveSkip g)

/-- How many bits of two byte lists of one length differ. -/
def bitErrors : List Byte → List Byte → Nat
  | a :: as, b :: bs => ((bitsOf 8 (a ^^^ b).toNat).filter id).length + bitErrors as bs
  | _, _ => 0

end Sys2Proof.Machine
end

