-- ==== Sys2Proof/Machine/State.lean ====
section
/-! DEFINITION. Everything the part holds, as plain data, one structure per block of the manual's block
overview, and the state right after a power-on reset. Quantities the manual counts are natural numbers
with the manual's ranges; what it shifts, masks or counts modulo 256 is a bit vector. -/

namespace Sys2Proof.Machine

/-! ## Names -/

/-- The role of R163. -/
inductive Role where
  | transparent
  | active
  | shadow
  deriving DecidableEq, Repr

/-- What a station entry declares its node to be (R29). -/
inductive StationRole where
  | induction
  | weigh
  | inspect
  | gateA
  | loader
  | head
  | stamp
  | gateB
  | other
  deriving DecidableEq, Repr

/-- R29. -/
inductive JamMode where
  | off
  | notify
  | auto
  deriving DecidableEq, Repr

/-- R36. -/
inductive Material where
  | steel
  | aluminium
  | composite
  deriving DecidableEq, Repr

/-- R38. -/
inductive OwnerState where
  | active
  | suspended
  deriving DecidableEq, Repr

/-- R40. -/
inductive RecallAction where
  | hold
  | scrap
  deriving DecidableEq, Repr

/-- R43: one element of a template. -/
inductive Element where
  | glyph (code : Nat)
  | space (columns : Nat)
  | month
  | year
  | plant
  | pressure
  | serialTail
  deriving DecidableEq, Repr

/-- R3: read quality. -/
inductive ReadQuality where
  | good
  | weak
  deriving DecidableEq, Repr

/-- R3: the due state. -/
inductive Due where
  | unknown
  | due
  | notDue
  deriving DecidableEq, Repr

/-- R3: a weight. -/
inductive Weight where
  | absent
  | lost
  | measured (grams : Nat) (stable : Bool)
  deriving DecidableEq, Repr

/-- R3: a grade. -/
inductive Grade where
  | absent
  | lost
  | graded (value : Nat)
  deriving DecidableEq, Repr

/-- The findings, in the order of the table of R15. -/
inductive Finding where
  | tagNoread
  | tagWeak
  | tagDateFuture
  | dateUnset
  | recallScrap
  | recallHold
  | ownerUnknown
  | ownerSuspended
  | classInvalid
  | endOfLife
  | gradeReject
  | gradeHold
  | gradeMissing
  | weightMissing
  | weightUnstable
  | tareLoss
  | tareGain
  | streamLoss
  | streamDegraded
  | routeDeviation
  | hydroFail
  | hydroOverpressure
  | hydroInvalid
  | headFault
  | identityDoubt
  | stampFault
  | stampUnconfirmed
  | stampComposeFail
  | operatorHold
  | implicitPass
  deriving DecidableEq, Repr

/-- R3. -/
inductive Verdict where
  | none
  | pass
  | fail
  | invalid
  | notTested
  deriving DecidableEq, Repr

/-- R3. -/
inductive StampStatus where
  | none
  | sent
  | done
  | fault
  | unconfirmed
  | skipped
  deriving DecidableEq, Repr

/-- R3: the routes of gate A. -/
inductive RouteA where
  | bank
  | returnBack
  | bypass
  deriving DecidableEq, Repr

/-- R3: the routes of gate B. -/
inductive RouteB where
  | fill
  | scrap
  | bench
  deriving DecidableEq, Repr

/-- R3. -/
inductive Disposition where
  | pending
  | returned
  | requalified
  | hold
  | condemned
  | lost
  deriving DecidableEq, Repr

/-- R3, R5: the one place an entry occupies. -/
inductive Location where
  | free
  | intake
  | gateA
  | feed
  | head (n : Nat)
  | finish
  | stamp
  | gateB
  | closing
  deriving DecidableEq, Repr

/-- The queues whose places are reserved (R11). -/
inductive Queue where
  | fq
  | xq
  | gq
  deriving DecidableEq, Repr

/-- R64: the state of a gate record. -/
inductive GateState where
  | idle
  | deferred
  | pending
  deriving DecidableEq, Repr

/-- R75: the states of a head. -/
inductive HeadState where
  | empty
  | disabled
  | assigned
  | loaded
  | pressurizing
  | holding
  | venting
  | settling
  | measuring
  | done
  | faulted
  deriving DecidableEq, Repr

/-- R75. -/
inductive Retest where
  | none
  | automatic
  | requested
  deriving DecidableEq, Repr

/-- R75, R105: the stage of a release or of a stamp. -/
inductive Stage where
  | none
  | claimed
  | sent
  deriving DecidableEq, Repr

/-- R75: which of a head's timers runs. -/
inductive StepKind where
  | ramp
  | hold
  | vent
  | settle
  | measure
  deriving DecidableEq, Repr

/-- R146. -/
inductive StreamState where
  | new
  | synced
  | degraded
  deriving DecidableEq, Repr

/-- R146: one mark of the gap history. -/
inductive Mark where
  | clean
  | gap
  deriving DecidableEq, Repr

/-- R151. -/
inductive JamState where
  | idle
  | qualifying
  | jammed
  | clearing
  deriving DecidableEq, Repr

/-- R156: a cause of the halt set. -/
inductive Cause where
  | jam (station : Nat)
  | overrun
  | manual
  deriving DecidableEq, Repr

/-- R159. -/
inductive FeedState where
  | go
  | hold
  deriving DecidableEq, Repr

/-- R141. -/
inductive LoopMode where
  | normal
  | local
  deriving DecidableEq, Repr

/-- R144. -/
inductive Checker where
  | off
  | seeking
  | locked
  deriving DecidableEq, Repr

/-- R166. -/
inductive Presence where
  | unknown
  | present
  | absent
  deriving DecidableEq, Repr

/-- R191. -/
inductive ResetCause where
  | powerOn
  | pin
  | restart
  deriving DecidableEq, Repr

/-- R52: the unknown-owner action. -/
inductive UnknownOwner where
  | hold
  | note
  | returnBack
  deriving DecidableEq, Repr

/-- The tables, in the order of their codes (R200). -/
inductive TableName where
  | station
  | cls
  | owner
  | recallList
  | glyph
  | template
  deriving DecidableEq, Repr

/-- The reply codes, in the order of R180 and R200. -/
inductive ReplyCode where
  | done
  | doneClamped
  | notReady
  | refusedSource
  | wrongState
  | badRequest
  | range
  | busy
  | conflict
  deriving DecidableEq, Repr

/-- The event kinds, in the order of R190. -/
inductive EventKind where
  | stationDegraded
  | stationResynced
  | jamQualified
  | jamCleared
  | overrun
  | loaderTimeout
  | headFault
  | stranger
  | orderLost
  | takeover
  | demoted
  | divergenceLimit
  | configDefaulted
  deriving DecidableEq, Repr

/-- The 22 counters, in the order of R187. -/
inductive Counter where
  | badCheck
  | longFrame
  | unknownKind
  | requestsDropped
  | ordersLost
  | ordersDropped
  | eventsDropped
  | stale
  | streamGaps
  | unattributed
  | stray
  | overrun
  | strangers
  | divergences
  | proveBitErrors
  | proveFramesLost
  | closedPending
  | closedReturned
  | closedRequalified
  | closedHold
  | closedCondemned
  | closedLost
  deriving DecidableEq, Repr

/-! ## Records -/

/-- A date: two-digit year and month (R45). -/
structure Date where
  year  : Nat
  month : Nat
  deriving DecidableEq, Repr

/-- R3: the identity part of a record, all fields within their ranges. -/
structure Identity where
  serial    : Nat
  owner     : Half
  cls       : Nat
  lastYear  : Nat
  lastMonth : Nat
  tare      : Nat
  mfgYear   : Nat
  quality   : ReadQuality
  deriving DecidableEq, Repr

/-- R36: the limits of a class entry; also the class snapshot of R3, R37. -/
structure ClassLimits where
  material      : Material
  interval      : Nat
  life          : Nat
  pt            : Nat
  margin        : Nat
  tolerance     : Nat
  hold          : Nat
  permLimit     : Nat
  elasticLimit  : Nat
  tareLoss      : Nat
  tareGain      : Nat
  maxRetests    : Nat
  ventThreshold : Nat
  settle        : Nat
  strike        : Nat
  deriving DecidableEq, Repr

/-- The reset column of R36. -/
def ClassLimits.reset : ClassLimits :=
  { material := .steel, interval := 1, life := 0, pt := 10, margin := 0, tolerance := 1, hold := 10,
    permLimit := 1, elasticLimit := 0, tareLoss := 0, tareGain := 0, maxRetests := 0,
    ventThreshold := 1, settle := 5, strike := 0 }

/-- R3: the owner snapshot. -/
structure OwnerSnapshot where
  advance      : Nat
  passTemplate : Nat
  deriving DecidableEq, Repr

/-- R3: the hydro result. -/
structure Hydro where
  verdict : Verdict
  et      : Nat
  ep      : Nat
  ratio   : Nat
  peak    : Nat
  retests : Nat
  date    : Option Date
  deriving DecidableEq, Repr

/-- R4: the hydro result as it is created. -/
def Hydro.fresh : Hydro :=
  { verdict := .none, et := 0, ep := 0, ratio := 0, peak := 0, retests := 0, date := none }

/-- R3: the record of an entry, less generation and location. -/
structure TrackRecord where
  identity    : Option Identity
  classSnap   : Option ClassLimits
  ownerSnap   : Option OwnerSnapshot
  due         : Due
  weight      : Weight
  grade       : Grade
  findings    : List Finding
  hydro       : Option Hydro
  stampStatus : StampStatus
  routeA      : Option RouteA
  routeB      : Option RouteB
  disposition : Disposition
  reservation : Option Queue
  atGate      : Bool
  deriving DecidableEq, Repr

/-- R4: the values a record starts with, and returns to when freed. -/
def TrackRecord.fresh : TrackRecord :=
  { identity := none, classSnap := none, ownerSnap := none, due := .unknown, weight := .absent,
    grade := .absent, findings := [], hydro := none, stampStatus := .none, routeA := none,
    routeB := none, disposition := .pending, reservation := none, atGate := false }

/-- R1 to R3: one entry of the track table. -/
structure TrackEntry where
  gen    : Byte
  place  : Location
  record : TrackRecord
  deriving DecidableEq, Repr

/-- R1: an entry after power-on. -/
def TrackEntry.fresh : TrackEntry := { gen := 0, place := .free, record := TrackRecord.fresh }

/-- R2: a track reference. -/
structure TrackRef where
  index : Nat
  gen   : Byte
  deriving DecidableEq, Repr

/-- An item of GQ, and what a gate serves: an entry or a stranger marker (R10, R64). -/
inductive Item where
  | entry (i : Nat)
  | marker
  deriving DecidableEq, Repr

/-- R13: who holds a claim. -/
inductive Claimant where
  | gateA (entry : Nat)
  | head (n entry : Nat)
  | stampSlot
  deriving DecidableEq, Repr

/-- R13: a claim on a queue. -/
structure Claim where
  queue  : Queue
  holder : Claimant
  deriving DecidableEq, Repr

/-- R64: a gate record; the routes are gate A's or gate B's. -/
structure GateRecord (ρ : Type) where
  state   : GateState
  item    : Option Item
  stored  : Option Byte
  ordered : Option ρ
  last    : Option Byte
  deriving DecidableEq, Repr

/-- R64: IDLE with every part absent. -/
def GateRecord.reset {ρ : Type} : GateRecord ρ :=
  { state := .idle, item := none, stored := none, ordered := none, last := none }

/-- R75: the one timer running for a head. -/
structure StepTimer where
  kind : StepKind
  left : Nat
  deriving DecidableEq, Repr

/-- R75: a head record. -/
structure HeadRecord where
  state        : HeadState
  cylinder     : Option Nat
  faulted      : Bool
  fixed        : Bool
  retest       : Retest
  degradedSeen : Bool
  window       : List Nat
  timer        : Option StepTimer
  release      : Stage
  deriving DecidableEq, Repr

/-- R75: a head record's power-on values. -/
def HeadRecord.reset : HeadRecord :=
  { state := .empty, cylinder := none, faulted := false, fixed := false, retest := .none,
    degradedSeen := false, window := [], timer := none, release := .none }

/-- R76: the loader record: the served head while BUSY, absent while IDLE, and the load timer. -/
structure Loader where
  serving : Option Nat
  timer   : Option Nat
  deriving DecidableEq, Repr

/-- R105: the held image. -/
structure Image where
  columns  : List Column
  segments : Nat
  strike   : Nat
  deriving DecidableEq, Repr

/-- R105: the stamp slot's content; a marker carries the serial and owner code read, if any. -/
inductive SlotContent where
  | empty
  | entry (i : Nat)
  | marker (read : Option (Nat × Half))
  deriving DecidableEq, Repr

/-- R105: the stamp slot. -/
structure StampSlot where
  content : SlotContent
  stage   : Stage
  image   : Option Image
  deriving DecidableEq, Repr

/-- R105: the stamp slot's reset values. -/
def StampSlot.reset : StampSlot := { content := .empty, stage := .none, image := none }

/-- R146: a stream record. -/
structure StreamRecord where
  state    : StreamState
  expected : Option Byte
  run      : Nat
  history  : List Mark
  deriving DecidableEq, Repr

/-- R146: NEW. -/
def StreamRecord.reset : StreamRecord := { state := .new, expected := none, run := 0, history := [] }

/-- R151: a jam qualifier; a timer is absent while stopped, else its milliseconds left. -/
structure JamQualifier where
  state   : JamState
  qualify : Option Nat
  gap     : Option Nat
  clear   : Option Nat
  deriving DecidableEq, Repr

/-- R151: IDLE, timers stopped. -/
def JamQualifier.reset : JamQualifier := { state := .idle, qualify := none, gap := none, clear := none }

/-- R156: the halt set, one bit for each JAM cause. -/
structure HaltSet where
  jams    : BitVec 16
  overrun : Bool
  manual  : Bool
  deriving DecidableEq, Repr

/-- R156: no cause. -/
def HaltSet.none : HaltSet := { jams := 0, overrun := false, manual := false }

/-- The orders, with the fields R202 lays out; `ref` is absent for a stranger marker. -/
inductive Order where
  | routeA (route : RouteA) (ref : TrackRef) (arrival : Byte)
  | routeB (route : RouteB) (ref : Option TrackRef) (arrival : Byte)
  | assign (head : Nat) (ref : TrackRef)
  | test (ref : TrackRef) (pt hold pmax : Nat)
  | vent (ref : TrackRef)
  | release (ref : TrackRef)
  | stamp (ref : Option TrackRef) (index count strike : Nat) (columns : List Column)
  | halt
  | resume
  | feedHold
  | feedGo
  deriving DecidableEq, Repr

/-- R132: an order built, with its destination. -/
structure OrderFrame where
  dst   : Node
  order : Order
  deriving DecidableEq, Repr

/-- R167: an expectation, with its timer's milliseconds left. -/
structure Expectation where
  dst   : Node
  order : Order
  timer : Nat
  deriving DecidableEq, Repr

/-- R137: an element of the outstanding order list. -/
structure Outstanding where
  seq   : Byte
  dst   : Node
  timer : Nat
  deriving DecidableEq, Repr

/-- R180: a reply; `data` is empty unless the code is DONE or DONE_CLAMPED. -/
structure Reply where
  dst  : Node
  kind : Byte
  seq  : Byte
  code : ReplyCode
  data : List Byte
  deriving DecidableEq, Repr

/-- R189: what a RESULT notice carries; `fill` is the model's counter at its building (log 8). -/
structure ResultRecord where
  ref         : TrackRef
  identity    : Option Identity
  disposition : Disposition
  findings    : List Finding
  routeA      : Option RouteA
  routeB      : Option RouteB
  hydro       : Option Hydro
  stampStatus : StampStatus
  fill        : Nat
  deriving DecidableEq, Repr

/-- R134, R189, R190: a notice, addressed when it is built. -/
inductive Notice where
  | event (dst : Node) (kind : EventKind) (arg : Nat)
  | result (dst : Node) (r : ResultRecord)
  deriving DecidableEq, Repr

/-- What the part puts on its lines: a run of bytes on the ring output, a frame on the local loop, or
the read command on the configuration memory's data-out wire (R131, R141, R193). -/
inductive Emission where
  | ring (bytes : List Byte)
  | loop (bytes : List Byte)
  | memory (bits : List Bool)
  deriving DecidableEq, Repr

/-- R143: an element of the prove list. -/
structure ProveElement where
  seq      : Byte
  position : Nat
  deriving DecidableEq, Repr

/-- R142 to R144: ring proving. -/
structure Proving where
  on          : Bool
  generator   : BitVec 15
  position    : Nat
  insertion   : Bool
  due         : Bool
  interval    : Option Nat
  list        : List ProveElement
  loss        : Nat
  checker     : Checker
  expected    : BitVec 15
  expectedPos : Nat
  run         : Nat
  window      : List Bool
  deriving DecidableEq, Repr

/-- R142: proving off. Generator and expected copy while off: DESIGN CHOICE (log 21). -/
def Proving.reset : Proving :=
  { on := false, generator := BitVec.allOnes 15, position := 0, insertion := false, due := false,
    interval := none, list := [], loss := 0, checker := .off, expected := BitVec.allOnes 15,
    expectedPos := 0, run := 0, window := [] }

/-- R29: a station entry. -/
structure StationEntry where
  valid : Bool
  node  : Node
  role  : StationRole
  head  : Nat
  jam   : JamMode
  deriving DecidableEq, Repr

/-- The reset column of R29. -/
def StationEntry.reset : StationEntry :=
  { valid := false, node := 0, role := .other, head := 0, jam := .off }

/-- R36: a class entry. -/
structure ClassEntry where
  valid  : Bool
  limits : ClassLimits
  deriving DecidableEq, Repr

/-- The reset column of R36. -/
def ClassEntry.reset : ClassEntry := { valid := false, limits := ClassLimits.reset }

/-- R38: an owner entry. -/
structure OwnerEntry where
  valid        : Bool
  code         : Half
  mask         : Half
  state        : OwnerState
  advance      : Nat
  passTemplate : Nat
  deriving DecidableEq, Repr

/-- The reset column of R38. -/
def OwnerEntry.reset : OwnerEntry :=
  { valid := false, code := 0, mask := 0, state := .active, advance := 0, passTemplate := 0 }

/-- R40: a recall entry. -/
structure RecallEntry where
  valid    : Bool
  ownerAny : Bool
  owner    : Half
  classAny : Bool
  cls      : Nat
  first    : Nat
  last     : Nat
  action   : RecallAction
  deriving DecidableEq, Repr

/-- The reset column of R40. -/
def RecallEntry.reset : RecallEntry :=
  { valid := false, ownerAny := false, owner := 0, classAny := false, cls := 0, first := 0, last := 0,
    action := .hold }

/-- R42: a glyph entry; six columns are stored whatever the width. -/
structure GlyphEntry where
  width   : Nat
  columns : List Column
  deriving DecidableEq, Repr

/-- The reset column of R42. -/
def GlyphEntry.reset : GlyphEntry := { width := 0, columns := List.replicate 6 0 }

/-- R195: the configuration values; timeouts in the units of R195. -/
structure Configuration where
  startRole      : Role
  autoTakeover   : Bool
  unknownOwner   : UnknownOwner
  own            : Node
  partner        : Node
  manager        : Node
  recorder       : Node
  beaconPeriod   : Nat
  takeoverTime   : Nat
  ringReturn     : Nat
  loadTimeout    : Nat
  rampTimeout    : Nat
  ventTimeout    : Nat
  measureTimeout : Nat
  iqHigh         : Nat
  iqLow          : Nat
  jamQualify     : Nat
  jamGap         : Nat
  clearQualify   : Nat
  plantMark      : List Nat
  condemn        : Nat
  proveInterval  : Nat
  deriving DecidableEq, Repr

/-- The default column of R195. -/
def Configuration.default : Configuration :=
  { startRole := .transparent, autoTakeover := false, unknownOwner := .hold, own := 62, partner := 61,
    manager := 1, recorder := 1, beaconPeriod := 100, takeoverTime := 1000, ringReturn := 50,
    loadTimeout := 60, rampTimeout := 120, ventTimeout := 60, measureTimeout := 30, iqHigh := 20,
    iqLow := 16, jamQualify := 2000, jamGap := 500, clearQualify := 3000, plantMark := [63, 63, 63, 63],
    condemn := 0, proveInterval := 20 }

/-! ## The blocks -/

/-- The supply, the reset input, the relay drive and the memory select (R145, R191 to R193). -/
structure Pins where
  supply      : Bool
  internal    : Bool
  pin         : Bool
  relayClosed : Bool
  memSelect   : Bool
  deriving DecidableEq, Repr

/-- RPT. -/
structure RingPort where
  orders      : List OrderFrame
  replies     : List Reply
  notices     : List Notice
  beaconDue   : Bool
  emitCount   : Byte
  outstanding : List Outstanding
  loop        : LoopMode
  sending     : Option Emission
  repeatBuf   : List (List Byte)
  proving     : Proving
  deriving DecidableEq, Repr

/-- SMN: one stream record and one jam qualifier for each of the 16 station entries. -/
structure StreamMonitor where
  streams : List StreamRecord
  jams    : List JamQualifier
  deriving DecidableEq, Repr

/-- LSC. -/
structure LineStop where
  halt   : HaltSet
  feed   : FeedState
  lastIq : Nat
  deriving DecidableEq, Repr

/-- TRK: the track table of 80 entries, the collections and the claims. -/
structure TrackUnit where
  table   : List TrackEntry
  iq      : List Nat
  gateA   : Option Nat
  fq      : List Nat
  xq      : List Nat
  gq      : List Item
  closing : List Nat
  claims  : List Claim
  deriving DecidableEq, Repr

/-- SCR's gate A record. -/
structure Screening where
  gate : GateRecord RouteA
  deriving DecidableEq, Repr

/-- TBC: the four heads and the loader. -/
structure TestBank where
  heads  : List HeadRecord
  loader : Loader
  deriving DecidableEq, Repr

/-- FCU: the stamp slot and the gate B record. -/
structure FinishCell where
  slot : StampSlot
  gate : GateRecord RouteB
  deriving DecidableEq, Repr

/-- R166: the partner record. -/
structure PartnerRecord where
  presence  : Presence
  role      : Option Role
  occupancy : Option Nat
  unfit     : Option Bool
  deriving DecidableEq, Repr

/-- ROL; `role` is absent while the part holds none (LOADING, R163). -/
structure RoleUnit where
  role         : Option Role
  beaconTimer  : Option Nat
  partner      : PartnerRecord
  expectations : List Expectation
  divergence   : Nat
  unfit        : Bool
  partnerSeen  : Option Nat
  deriving DecidableEq, Repr

/-- MGA: the pointer, the 22 counters in the order of R187, the date and the plant mark override. -/
structure Management where
  table    : TableName
  index    : Nat
  counters : List Nat
  date     : Option Date
  override : Option (List Nat)
  deriving DecidableEq, Repr

/-- CFL. -/
structure ConfigLoader where
  loading   : Bool
  cause     : ResetCause
  defaulted : Bool
  config    : Configuration
  deriving DecidableEq, Repr

/-- R26: the six loaded tables. -/
structure Tables where
  station    : List StationEntry
  cls        : List ClassEntry
  owner      : List OwnerEntry
  recallList : List RecallEntry
  glyph      : List GlyphEntry
  template   : List (List Element)
  deriving DecidableEq, Repr

/-- The state of the block: the ten blocks, the pins, the tables, and three fields of the model's own:
`out`, what the latest event put on the part's lines; `free`, which picks the next free value (log 7);
`pending`, the commands waiting, first in, first out. -/
structure State where
  pins    : Pins
  rpt     : RingPort
  smn     : StreamMonitor
  lsc     : LineStop
  trk     : TrackUnit
  scr     : Screening
  tbc     : TestBank
  fcu     : FinishCell
  rol     : RoleUnit
  mga     : Management
  cfl     : ConfigLoader
  tables  : Tables
  out     : List Emission
  free    : Nat
  pending : List Instr
  deriving DecidableEq, Repr

/-- The part has no fault stop: every event has an effect, or a rule that says it has none. -/
inductive Fault where
  deriving DecidableEq, Repr

/-- Why a command is refused. -/
inductive Refusal where
  /-- Raised by `exec` alone, for a row of the table that has no meaning yet. Safe: the model stops
  where the part goes on. No arm of this model uses it. -/
  | notModelled (mnemonic : String)
  deriving DecidableEq, Repr

/-! ## Power-on values (R23, R26, R46, R64, R75, R76, R105, R126 to R144, R146, R151, R156, R159, R166,
R167, R171, R181, R187, R191) -/

def RingPort.reset : RingPort :=
  { orders := [], replies := [], notices := [], beaconDue := false, emitCount := 0, outstanding := [],
    loop := .normal, sending := none, repeatBuf := [], proving := Proving.reset }

def StreamMonitor.reset : StreamMonitor :=
  { streams := List.replicate 16 StreamRecord.reset, jams := List.replicate 16 JamQualifier.reset }

def LineStop.reset : LineStop := { halt := HaltSet.none, feed := .go, lastIq := 0 }

def TrackUnit.reset : TrackUnit :=
  { table := List.replicate 80 TrackEntry.fresh, iq := [], gateA := none, fq := [], xq := [], gq := [],
    closing := [], claims := [] }

def Loader.reset : Loader := { serving := none, timer := none }

def TestBank.reset : TestBank := { heads := List.replicate 4 HeadRecord.reset, loader := Loader.reset }

def FinishCell.reset : FinishCell := { slot := StampSlot.reset, gate := GateRecord.reset }

def PartnerRecord.reset : PartnerRecord :=
  { presence := .unknown, role := none, occupancy := none, unfit := none }

def RoleUnit.reset : RoleUnit :=
  { role := none, beaconTimer := none, partner := PartnerRecord.reset, expectations := [],
    divergence := 0, unfit := false, partnerSeen := none }

def Management.reset : Management :=
  { table := .station, index := 0, counters := List.replicate 22 0, date := none, override := none }

/-- The last reset cause while a reset is still asserted, and the configuration until END_OF_LOADING, are
the model's (DESIGN CHOICE, logs 12 and 13). -/
def ConfigLoader.reset : ConfigLoader :=
  { loading := false, cause := .powerOn, defaulted := true, config := Configuration.default }

def Tables.reset : Tables :=
  { station := List.replicate 16 StationEntry.reset, cls := List.replicate 64 ClassEntry.reset,
    owner := List.replicate 128 OwnerEntry.reset, recallList := List.replicate 32 RecallEntry.reset,
    glyph := List.replicate 64 GlyphEntry.reset, template := List.replicate 16 [] }

/-- R191, R192: every block at its power-on values, with the pins as given. -/
def State.powerOn (p : Pins) (out : List Emission) (free : Nat) (pending : List Instr) : State :=
  { pins := p, rpt := RingPort.reset, smn := StreamMonitor.reset, lsc := LineStop.reset,
    trk := TrackUnit.reset, scr := { gate := GateRecord.reset }, tbc := TestBank.reset,
    fcu := FinishCell.reset, rol := RoleUnit.reset, mga := Management.reset, cfl := ConfigLoader.reset,
    tables := Tables.reset, out := out, free := free, pending := pending }

/-- The machine right after a power-on reset: released, the relay open, the cause POWER_ON, in LOADING
with the memory selected (R192, R193). Nothing waits in the queue. -/
def State.reset : State :=
  let base := State.powerOn
    { supply := true, internal := false, pin := false, relayClosed := false, memSelect := true } [] 0 []
  { base with cfl := { ConfigLoader.reset with loading := true } }

end Sys2Proof.Machine
end

