-- ==== Sys2Proof/Machine/Flags.lean ====
section
/-! DEFINITION. Findings and the disposition merge, the halt set, the counters, gap marks: every flag
and flag set the part computes. -/

namespace Sys2Proof.Machine

/-! ## Findings (R15, R16) -/

/-- R15: the severities. -/
inductive Severity where
  | note
  | hold
  | condemn
  deriving DecidableEq, Repr

/-- The findings in the order of the table of R15. -/
def Finding.all : List Finding :=
  [.tagNoread, .tagWeak, .tagDateFuture, .dateUnset, .recallScrap, .recallHold, .ownerUnknown,
   .ownerSuspended, .classInvalid, .endOfLife, .gradeReject, .gradeHold, .gradeMissing, .weightMissing,
   .weightUnstable, .tareLoss, .tareGain, .streamLoss, .streamDegraded, .routeDeviation, .hydroFail,
   .hydroOverpressure, .hydroInvalid, .headFault, .identityDoubt, .stampFault, .stampUnconfirmed,
   .stampComposeFail, .operatorHold, .implicitPass]

/-- R15: the severity of a finding; OWNER_UNKNOWN's is set by the unknown-owner action (log 24). -/
def Finding.severity (action : UnknownOwner) : Finding → Severity
  | .tagWeak | .implicitPass => .note
  | .recallScrap | .endOfLife | .gradeReject | .tareLoss | .hydroFail | .hydroOverpressure => .condemn
  | .ownerUnknown => match action with
    | .hold => .hold
    | .note | .returnBack => .note
  | .tagNoread | .tagDateFuture | .dateUnset | .recallHold | .ownerSuspended | .classInvalid | .gradeHold
  | .gradeMissing | .weightMissing | .weightUnstable | .tareGain | .streamLoss | .streamDegraded
  | .routeDeviation | .hydroInvalid | .headFault | .identityDoubt | .stampFault | .stampUnconfirmed
  | .stampComposeFail | .operatorHold => .hold

/-- R15: a set of findings with one more; a finding already present leaves the set unchanged. The set is
kept in the table's order, so that equal sets are equal lists. -/
def insertFinding (f : Finding) (fs : List Finding) : List Finding :=
  Finding.all.filter fun g => g == f || fs.contains g

/-- R16: whether a set holds a finding of a severity. -/
def hasSeverity (action : UnknownOwner) (v : Severity) (fs : List Finding) : Bool :=
  fs.any fun f => f.severity action == v

/-- R16: the disposition recomputed after a finding was added. -/
def mergeDisposition (action : UnknownOwner) (fs : List Finding) (d : Disposition) : Disposition :=
  if d = .lost then .lost
  else if hasSeverity action .condemn fs then .condemned
  else if hasSeverity action .hold fs then .hold
  else d

/-- R15, R16: a record with a finding added. -/
def TrackRecord.addFinding (action : UnknownOwner) (f : Finding) (r : TrackRecord) : TrackRecord :=
  let fs := insertFinding f r.findings
  { r with findings := fs, disposition := mergeDisposition action fs r.disposition }

/-- R200: the findings set as 30 flag bits, the first finding most significant. -/
def findingBits (fs : List Finding) : List Bool := Finding.all.map fs.contains

/-! ## The halt set (R156) -/

def HaltSet.isEmpty (h : HaltSet) : Bool := h.jams == 0 && !h.overrun && !h.manual

def HaltSet.contains (h : HaltSet) : Cause → Bool
  | .jam e => h.jams.getLsbD e
  | .overrun => h.overrun
  | .manual => h.manual

/-- R156: adding a cause already present leaves the set unchanged. -/
def HaltSet.add (h : HaltSet) : Cause → HaltSet
  | .jam e => { h with jams := h.jams ||| (1#16 <<< e) }
  | .overrun => { h with overrun := true }
  | .manual => { h with manual := true }

/-- R156: removing a cause that is absent leaves the set unchanged. -/
def HaltSet.remove (h : HaltSet) : Cause → HaltSet
  | .jam e => { h with jams := h.jams &&& ~~~(1#16 <<< e) }
  | .overrun => { h with overrun := false }
  | .manual => { h with manual := false }

/-! ## Counters (R187) -/

/-- A counter holds at 4294967295. -/
def counterMax : Nat := 4294967295

/-- A counter's place in the order of R187. -/
def Counter.index : Counter → Nat
  | .badCheck => 0
  | .longFrame => 1
  | .unknownKind => 2
  | .requestsDropped => 3
  | .ordersLost => 4
  | .ordersDropped => 5
  | .eventsDropped => 6
  | .stale => 7
  | .streamGaps => 8
  | .unattributed => 9
  | .stray => 10
  | .overrun => 11
  | .strangers => 12
  | .divergences => 13
  | .proveBitErrors => 14
  | .proveFramesLost => 15
  | .closedPending => 16
  | .closedReturned => 17
  | .closedRequalified => 18
  | .closedHold => 19
  | .closedCondemned => 20
  | .closedLost => 21

/-- R20: the closed counter of a disposition. -/
def Disposition.counter : Disposition → Counter
  | .pending => .closedPending
  | .returned => .closedReturned
  | .requalified => .closedRequalified
  | .hold => .closedHold
  | .condemned => .closedCondemned
  | .lost => .closedLost

/-- R187: a count raised by `n`, saturating. -/
def saturate (c n : Nat) : Nat := min (c + n) counterMax

/-! ## The gap history (R146) -/

/-- R146: a mark enters; when a thirty-third would stand, the oldest leaves. -/
def pushMark (m : Mark) (h : List Mark) : List Mark :=
  let h := h ++ [m]
  h.drop (h.length - 32)

/-- R148: how many GAP marks the history holds. -/
def gapMarks (h : List Mark) : Nat := h.count .gap

end Sys2Proof.Machine
end

