-- ==== Sys2Proof/Machine/Operands.lean ====
section
/-! DEFINITION. The layouts of chapter 11: every payload the part reads or sends, every code of a named
value, every table entry with its range checks (R28, R199 to R207). -/

namespace Sys2Proof.Machine

/-! ## Codes (R200, R204, R207) -/

def Role.code : Role → Nat
  | .transparent => 0
  | .active => 1
  | .shadow => 2

def Role.ofCode : Nat → Option Role
  | 0 => some .transparent
  | 1 => some .active
  | 2 => some .shadow
  | _ => none

def RouteA.code : RouteA → Nat
  | .bank => 0
  | .returnBack => 1
  | .bypass => 2

def RouteA.ofCode : Nat → Option RouteA
  | 0 => some .bank
  | 1 => some .returnBack
  | 2 => some .bypass
  | _ => none

def RouteB.code : RouteB → Nat
  | .fill => 0
  | .scrap => 1
  | .bench => 2

def RouteB.ofCode : Nat → Option RouteB
  | 0 => some .fill
  | 1 => some .scrap
  | 2 => some .bench
  | _ => none

def Disposition.code : Disposition → Nat
  | .pending => 0
  | .returned => 1
  | .requalified => 2
  | .hold => 3
  | .condemned => 4
  | .lost => 5

def Verdict.code : Verdict → Nat
  | .none => 0
  | .pass => 1
  | .fail => 2
  | .invalid => 3
  | .notTested => 4

def StampStatus.code : StampStatus → Nat
  | .none => 0
  | .sent => 1
  | .done => 2
  | .fault => 3
  | .unconfirmed => 4
  | .skipped => 5

def Location.code : Location → Nat
  | .free => 0
  | .intake => 1
  | .gateA => 2
  | .feed => 3
  | .head n => 4 + n
  | .finish => 8
  | .stamp => 9
  | .gateB => 10
  | .closing => 11

def HeadState.code : HeadState → Nat
  | .empty => 0
  | .disabled => 1
  | .assigned => 2
  | .loaded => 3
  | .pressurizing => 4
  | .holding => 5
  | .venting => 6
  | .settling => 7
  | .measuring => 8
  | .done => 9
  | .faulted => 10

def TableName.code : TableName → Nat
  | .station => 0
  | .cls => 1
  | .owner => 2
  | .recallList => 3
  | .glyph => 4
  | .template => 5

def TableName.ofCode : Nat → Option TableName
  | 0 => some .station
  | 1 => some .cls
  | 2 => some .owner
  | 3 => some .recallList
  | 4 => some .glyph
  | 5 => some .template
  | _ => none

/-- R26, R181: the number of entries. -/
def TableName.size : TableName → Nat
  | .station => 16
  | .cls => 64
  | .owner => 128
  | .recallList => 32
  | .glyph => 64
  | .template => 16

def ReplyCode.code : ReplyCode → Nat
  | .done => 0
  | .doneClamped => 1
  | .notReady => 2
  | .refusedSource => 3
  | .wrongState => 4
  | .badRequest => 5
  | .range => 6
  | .busy => 7
  | .conflict => 8

def EventKind.code : EventKind → Nat
  | .stationDegraded => 1
  | .stationResynced => 2
  | .jamQualified => 3
  | .jamCleared => 4
  | .overrun => 5
  | .loaderTimeout => 6
  | .headFault => 7
  | .stranger => 8
  | .orderLost => 9
  | .takeover => 10
  | .demoted => 11
  | .divergenceLimit => 12
  | .configDefaulted => 13

def StationRole.code : StationRole → Nat
  | .induction => 0
  | .weigh => 1
  | .inspect => 2
  | .gateA => 3
  | .loader => 4
  | .head => 5
  | .stamp => 6
  | .gateB => 7
  | .other => 8

def StationRole.ofCode : Nat → Option StationRole
  | 0 => some .induction
  | 1 => some .weigh
  | 2 => some .inspect
  | 3 => some .gateA
  | 4 => some .loader
  | 5 => some .head
  | 6 => some .stamp
  | 7 => some .gateB
  | 8 => some .other
  | _ => none

def JamMode.code : JamMode → Nat
  | .off => 0
  | .notify => 1
  | .auto => 2

def JamMode.ofCode : Nat → Option JamMode
  | 0 => some .off
  | 1 => some .notify
  | 2 => some .auto
  | _ => none

def Material.code : Material → Nat
  | .steel => 0
  | .aluminium => 1
  | .composite => 2

def Material.ofCode : Nat → Option Material
  | 0 => some .steel
  | 1 => some .aluminium
  | 2 => some .composite
  | _ => none

def StreamState.code : StreamState → Nat
  | .new => 0
  | .synced => 1
  | .degraded => 2

def JamState.code : JamState → Nat
  | .idle => 0
  | .qualifying => 1
  | .jammed => 2
  | .clearing => 3

def ResetCause.code : ResetCause → Nat
  | .powerOn => 0
  | .pin => 1
  | .restart => 2

def Checker.code : Checker → Nat
  | .off => 0
  | .seeking => 1
  | .locked => 2

def Presence.code : Presence → Nat
  | .unknown => 0
  | .present => 1
  | .absent => 2

def GateState.code : GateState → Nat
  | .idle => 0
  | .deferred => 1
  | .pending => 2

def Stage.code : Stage → Nat
  | .none => 0
  | .claimed => 1
  | .sent => 2

def Queue.code : Queue → Nat
  | .fq => 1
  | .xq => 2
  | .gq => 3

def Due.code : Due → Nat
  | .unknown => 0
  | .due => 1
  | .notDue => 2

/-- R204: an absent index or count is sent as 255. -/
def orAbsent : Option Nat → Nat
  | none => 255
  | some n => n

/-- R205: a code of an optional value: absent 0, then the codes plus one. -/
def optCode {α : Type} (code : α → Nat) : Option α → Nat
  | none => 0
  | some a => code a + 1

/-! ## Reports (R199, R201) -/

/-- A report with its fields as they stand in the frame. -/
inductive Report where
  | tag (r : TagRead)
  | weight (grams : BitVec 32) (stable : Bool)
  | grade (g : Byte)
  | atGate (arrival : Byte)
  | passed (route : Byte) (ref : WireRef)
  | loaded (head : Byte) (ref : WireRef)
  | pressure (bar : Half)
  | expansion (value : Half)
  | unloaded
  | headFault
  | stampDone (ref : WireRef)
  | stampFault (ref : WireRef)
  | jam
  | clear
  deriving DecidableEq, Repr

/-- R201: the identity fields of a TAG. -/
def tagBytes (f : TagFields) : List Byte :=
  full f.serial ++ half f.owner ++ [f.cls, f.lastYear, f.lastMonth] ++ half f.tare ++ [f.mfgYear]

/-- R201: the payload of a report. -/
def Report.payload : Report → List Byte
  | .tag (.good f) => 1 :: 0 :: tagBytes f
  | .tag (.weak f) => 1 :: 1 :: tagBytes f
  | .tag .noread => [1, 2]
  | .weight g st => 2 :: full g ++ [byte (flag st)]
  | .grade g => [3, g]
  | .atGate a => [4, a]
  | .passed r ref => [5, r, ref.index, ref.gen]
  | .loaded h ref => [6, h, ref.index, ref.gen]
  | .pressure b => 7 :: half b
  | .expansion v => 8 :: half v
  | .unloaded => [9]
  | .headFault => [10]
  | .stampDone ref => [11, ref.index, ref.gen]
  | .stampFault ref => [12, ref.index, ref.gen]
  | .jam => [13]
  | .clear => [14]

/-- R201: a tag read from its result byte and identity fields. -/
def parseTag (r : Byte) (f : TagFields) : Option Report :=
  match r.toNat with
  | 0 => some (.tag (.good f))
  | 1 => some (.tag (.weak f))
  | 2 => some (.tag .noread)
  | _ => none

/-- R199: a report read from its payload; none where it does not fit a layout of R201 (a kind that names
no kind, a length the table does not give, a result or stable byte that names no value). The route code
of PASSED is left to R71. -/
def parseReport : List Byte → Option Report
  | [] => none
  | k :: body =>
    match k.toNat, body with
    | 1, [r] => if r = 2 then some (.tag .noread) else none
    | 1, [r, s3, s2, s1, s0, o1, o0, c, ly, lm, t1, t0, m] =>
        parseTag r { serial := unfull s3 s2 s1 s0, owner := unhalf o1 o0, cls := c, lastYear := ly,
                     lastMonth := lm, tare := unhalf t1 t0, mfgYear := m }
    | 2, [g3, g2, g1, g0, st] =>
        if st = 0 then some (.weight (unfull g3 g2 g1 g0) false)
        else if st = 1 then some (.weight (unfull g3 g2 g1 g0) true) else none
    | 3, [g] => some (.grade g)
    | 4, [a] => some (.atGate a)
    | 5, [r, i, g] => some (.passed r ⟨i, g⟩)
    | 6, [h, i, g] => some (.loaded h ⟨i, g⟩)
    | 7, [b1, b0] => some (.pressure (unhalf b1 b0))
    | 8, [b1, b0] => some (.expansion (unhalf b1 b0))
    | 9, [] => some .unloaded
    | 10, [] => some .headFault
    | 11, [i, g] => some (.stampDone ⟨i, g⟩)
    | 12, [i, g] => some (.stampFault ⟨i, g⟩)
    | 13, [] => some .jam
    | 14, [] => some .clear
    | _, _ => none

/-- R48: the fields all lie within their ranges. -/
def tagInRange (f : TagFields) : Bool :=
  f.cls.toNat ≤ 63 && f.lastYear.toNat ≤ 99 && 1 ≤ f.lastMonth.toNat && f.lastMonth.toNat ≤ 12 &&
  100 ≤ f.tare.toNat && f.tare.toNat ≤ 20000 && f.mfgYear.toNat ≤ 99

/-- R48: the identity that fields in range give. -/
def tagIdentity (f : TagFields) (q : ReadQuality) : Identity :=
  { serial := f.serial.toNat, owner := f.owner, cls := f.cls.toNat, lastYear := f.lastYear.toNat,
    lastMonth := f.lastMonth.toNat, tare := f.tare.toNat, mfgYear := f.mfgYear.toNat, quality := q }

/-- R48: the identity a read gives; a malformed read is taken as NOREAD. -/
def readIdentity : TagRead → Option Identity
  | .good f => if tagInRange f then some (tagIdentity f .good) else none
  | .weak f => if tagInRange f then some (tagIdentity f .weak) else none
  | .noread => none

/-! ## Orders (R202) -/

/-- R200: a track reference as sent; absent is index 255, generation 0. -/
def refBytes : Option TrackRef → List Byte
  | some r => [byte r.index, r.gen]
  | none => [255, 0]

/-- R202: the order kinds by code. -/
def Order.kindCode : Order → Byte
  | .routeA .. | .routeB .. => 1
  | .assign .. => 2
  | .test .. => 3
  | .vent _ => 4
  | .release _ => 5
  | .stamp .. => 6
  | .halt => 7
  | .resume => 8
  | .feedHold => 9
  | .feedGo => 10

/-- The track reference an order carries. -/
def Order.ref : Order → Option TrackRef
  | .routeA _ r _ => some r
  | .routeB _ r _ => r
  | .assign _ r => some r
  | .test r .. => some r
  | .vent r => some r
  | .release r => some r
  | .stamp r .. => r
  | .halt | .resume | .feedHold | .feedGo => none

/-- R199: an order's content: its payload less the kind and the reference. -/
def Order.content : Order → List Byte
  | .routeA r _ a => [byte r.code, a]
  | .routeB r _ a => [byte r.code, a]
  | .assign h _ => [byte h]
  | .test _ pt hold pmax => half' pt ++ half' hold ++ half' pmax
  | .vent _ | .release _ => []
  | .stamp _ i n st cols => [byte i, byte n, byte st, byte cols.length] ++ cols.map (·.zeroExtend 8)
  | .halt | .resume | .feedHold | .feedGo => []

/-- R202: the payload of an order. -/
def Order.payload (o : Order) : List Byte :=
  match o with
  | .routeA r ref a => [1, byte r.code] ++ refBytes (some ref) ++ [a]
  | .routeB r ref a => [1, byte r.code] ++ refBytes ref ++ [a]
  | .assign h ref => [2, byte h] ++ refBytes (some ref)
  | .test ref .. | .vent ref | .release ref => o.kindCode :: refBytes (some ref) ++ o.content
  | .stamp ref .. => 6 :: refBytes ref ++ o.content
  | .halt | .resume | .feedHold | .feedGo => [o.kindCode]

/-- R168, R199: an order as the comparison sees it: kind, reference (absent when its index byte is 255)
and content. -/
structure OrderWire where
  kind    : Byte
  ref     : Option WireRef
  content : List Byte
  deriving DecidableEq, Repr

/-- R199: a reference as read. -/
def readRef (i g : Byte) : Option WireRef := if i = 255 then none else some ⟨i, g⟩

/-- The comparison form of an order of the part's own. -/
def Order.wire (o : Order) : OrderWire :=
  { kind := o.kindCode,
    ref := match o.ref with
      | some r => readRef (byte r.index) r.gen
      | none => none,
    content := o.content }

/-- R199: an order read from its payload; none where its kind names no kind or its length is wrong for
the kind. -/
def parseOrder : List Byte → Option OrderWire
  | [] => none
  | k :: body =>
    match k.toNat, body with
    | 1, [r, i, g, a] => some ⟨k, readRef i g, [r, a]⟩
    | 2, [h, i, g] => some ⟨k, readRef i g, [h]⟩
    | 3, [i, g, p1, p0, h1, h0, m1, m0] => some ⟨k, readRef i g, [p1, p0, h1, h0, m1, m0]⟩
    | 4, [i, g] => some ⟨k, readRef i g, []⟩
    | 5, [i, g] => some ⟨k, readRef i g, []⟩
    | 6, i :: g :: si :: sc :: st :: n :: cols =>
        if cols.length = n.toNat ∧ n.toNat ≤ 40 then some ⟨k, readRef i g, si :: sc :: st :: n :: cols⟩
        else none
    | 7, [] => some ⟨k, none, []⟩
    | 8, [] => some ⟨k, none, []⟩
    | 9, [] => some ⟨k, none, []⟩
    | 10, [] => some ⟨k, none, []⟩
    | _, _ => none

/-! ## Requests (R179, R203) -/

/-- The seventeen request kinds, with their payload bytes as received. -/
inductive Request where
  | status (part : Byte)
  | select (table index : Byte)
  | read
  | write (entry : List Byte)
  | trackRead (index : Byte)
  | counters (group : Byte)
  | clearCounters
  | setDate (year month : Byte)
  | setRole (role : Byte)
  | setLoop (mode : Byte)
  | head (head action : Byte)
  | trackHold (ref : WireRef)
  | haltManual (on : Byte)
  | clearOverrun
  | prove (action : Byte)
  | setPlantMark (c1 c2 c3 c4 : Byte)
  | restart
  deriving DecidableEq, Repr

/-- R203: the kinds are coded 1 to 17 in the order of R179. -/
def Request.kindCode : Request → Byte
  | .status _ => 1
  | .select .. => 2
  | .read => 3
  | .write _ => 4
  | .trackRead _ => 5
  | .counters _ => 6
  | .clearCounters => 7
  | .setDate .. => 8
  | .setRole _ => 9
  | .setLoop _ => 10
  | .head .. => 11
  | .trackHold _ => 12
  | .haltManual _ => 13
  | .clearOverrun => 14
  | .prove _ => 15
  | .setPlantMark .. => 16
  | .restart => 17

/-- R178 step 1: the kind is one of the seventeen. -/
def requestKindKnown (k : Byte) : Bool := 1 ≤ k.toNat && k.toNat ≤ 17

/-- R179: the kinds accepted from the manager node alone. -/
def requestKindManager (k : Byte) : Bool :=
  !(k == 1 || k == 2 || k == 3 || k == 5 || k == 6)

/-- R203: a request's payload after the kind byte. -/
def Request.body : Request → List Byte
  | .status p => [p]
  | .select t i => [t, i]
  | .read | .clearCounters | .clearOverrun | .restart => []
  | .write e => e
  | .trackRead i => [i]
  | .counters g => [g]
  | .setDate y m => [y, m]
  | .setRole r => [r]
  | .setLoop m => [m]
  | .head h a => [h, a]
  | .trackHold r => [r.index, r.gen]
  | .haltManual v => [v]
  | .prove a => [a]
  | .setPlantMark a b c d => [a, b, c, d]

/-- R178 step 3, the length: the request of a kind and the bytes after the kind byte, none where the
length is not the kind's. The length of a WRITE is its table's (`entryFits`). -/
def parseRequest (k : Byte) (body : List Byte) : Option Request :=
  match k.toNat, body with
  | 1, [p] => some (.status p)
  | 2, [t, i] => some (.select t i)
  | 3, [] => some .read
  | 4, e => some (.write e)
  | 5, [i] => some (.trackRead i)
  | 6, [g] => some (.counters g)
  | 7, [] => some .clearCounters
  | 8, [y, m] => some (.setDate y m)
  | 9, [r] => some (.setRole r)
  | 10, [m] => some (.setLoop m)
  | 11, [h, a] => some (.head h a)
  | 12, [i, g] => some (.trackHold ⟨i, g⟩)
  | 13, [v] => some (.haltManual v)
  | 14, [] => some .clearOverrun
  | 15, [a] => some (.prove a)
  | 16, [a, b, c, d] => some (.setPlantMark a b c d)
  | 17, [] => some .restart
  | _, _ => none

/-- R203: the payload of a reply; the data follows only for DONE and DONE_CLAMPED. -/
def Reply.payload (r : Reply) : List Byte := r.kind :: r.seq :: byte r.code.code :: r.data

/-! ## Table entries (R28, R29, R36, R38, R40, R42, R43, R207) -/

/-- R28 step 2: a number outside its range goes to the nearer end. -/
def clampTo (lo hi n : Nat) : Nat := max lo (min hi n)

/-- A number lies outside its range. -/
def outside (lo hi n : Nat) : Bool := n < lo || hi < n

/-- R178, R207: an entry has its table's length; a template's follows from its element count. -/
def entryFits : TableName → List Byte → Bool
  | .station, e => e.length == 3
  | .cls, e => e.length == 21
  | .owner, e => e.length == 7
  | .recallList, e => e.length == 12
  | .glyph, e => e.length == 7
  | .template, n :: e => n.toNat ≤ 23 && e.length == 2 * n.toNat
  | .template, [] => false

/-- R29, R207: a station entry read, and whether a number was clamped; none for a code that names no
value. A head number counts as clamped whatever the role (log 16). -/
def parseStation : List Byte → Option (StationEntry × Bool)
  | [b, node, head] =>
    match StationRole.ofCode (b.toNat / 8 % 16), JamMode.ofCode (b.toNat / 2 % 4) with
    | some role, some jam =>
      some ({ valid := b.getLsbD 7, node := BitVec.ofNat 6 (clampTo 0 62 node.toNat), role := role,
              head := if role = .head then clampTo 0 3 head.toNat else 0, jam := jam },
            outside 0 62 node.toNat || outside 0 3 head.toNat)
    | _, _ => none
  | _ => none

/-- R36: the limits clamped to their ranges. -/
def ClassLimits.clamp (l : ClassLimits) : ClassLimits :=
  { l with
    interval := clampTo 1 240 l.interval, life := clampTo 0 80 l.life, pt := clampTo 10 700 l.pt,
    margin := clampTo 0 200 l.margin, tolerance := clampTo 1 50 l.tolerance,
    hold := clampTo 10 600 l.hold, permLimit := clampTo 1 500 l.permLimit,
    elasticLimit := clampTo 0 30000 l.elasticLimit, tareLoss := clampTo 0 500 l.tareLoss,
    tareGain := clampTo 0 5000 l.tareGain, maxRetests := clampTo 0 3 l.maxRetests,
    ventThreshold := clampTo 0 20 l.ventThreshold, settle := clampTo 5 120 l.settle,
    strike := clampTo 0 3 l.strike }

/-- R36, R207: a class entry read, and whether a number was clamped. -/
def parseClass : List Byte → Option (ClassEntry × Bool)
  | [b, iv, life, p1, p0, mg, tol, h1, h0, q1, q0, e1, e0, l1, l0, g1, g0, rt, vt, st, sk] =>
    match Material.ofCode (b.toNat / 32 % 4) with
    | some m =>
      let raw : ClassLimits :=
        { material := m, interval := iv.toNat, life := life.toNat, pt := (unhalf p1 p0).toNat,
          margin := mg.toNat, tolerance := tol.toNat, hold := (unhalf h1 h0).toNat,
          permLimit := (unhalf q1 q0).toNat, elasticLimit := (unhalf e1 e0).toNat,
          tareLoss := (unhalf l1 l0).toNat, tareGain := (unhalf g1 g0).toNat, maxRetests := rt.toNat,
          ventThreshold := vt.toNat, settle := st.toNat, strike := sk.toNat }
      some ({ valid := b.getLsbD 7, limits := raw.clamp }, raw != raw.clamp)
    | none => none
  | _ => none

/-- R38, R207: an owner entry read, and whether a number was clamped. -/
def parseOwner : List Byte → Option (OwnerEntry × Bool)
  | [b, c1, c0, m1, m0, adv, tp] =>
    some ({ valid := b.getLsbD 7, code := unhalf c1 c0, mask := unhalf m1 m0,
            state := if b.getLsbD 6 then .suspended else .active,
            advance := clampTo 0 24 adv.toNat, passTemplate := clampTo 0 15 tp.toNat },
          outside 0 24 adv.toNat || outside 0 15 tp.toNat)
  | _ => none

/-- R40, R207: a recall entry read, and whether a number was clamped. The class counts as clamped even
where class any is on (log 16). -/
def parseRecall : List Byte → Option (RecallEntry × Bool)
  | [b, o1, o0, c, f3, f2, f1, f0, l3, l2, l1, l0] =>
    let ownerAny := b.getLsbD 6
    let classAny := b.getLsbD 5
    some ({ valid := b.getLsbD 7, ownerAny := ownerAny, owner := if ownerAny then 0 else unhalf o1 o0,
            classAny := classAny, cls := if classAny then 0 else clampTo 0 63 c.toNat,
            first := (unfull f3 f2 f1 f0).toNat, last := (unfull l3 l2 l1 l0).toNat,
            action := if b.getLsbD 4 then .scrap else .hold },
          outside 0 63 c.toNat)
  | _ => none

/-- R42, R207: a glyph entry read, and whether the width was clamped; bit 7 of a column is not kept. -/
def parseGlyph : List Byte → Option (GlyphEntry × Bool)
  | w :: cols =>
    some ({ width := clampTo 0 6 w.toNat, columns := cols.map (·.truncate 7) }, outside 0 6 w.toNat)
  | [] => none

/-- R43, R207: one element read, and whether its parameter was clamped. -/
def parseElement (kind param : Byte) : Option (Element × Bool) :=
  match kind.toNat with
  | 0 => some (.glyph (clampTo 0 63 param.toNat), outside 0 63 param.toNat)
  | 1 => some (.space (clampTo 1 8 param.toNat), outside 1 8 param.toNat)
  | 2 => some (.month, false)
  | 3 => some (.year, false)
  | 4 => some (.plant, false)
  | 5 => some (.pressure, false)
  | 6 => some (.serialTail, false)
  | _ => none

/-- All the elements a WRITE carries; none where one of them names no kind (log 17). -/
def parseElements : List Byte → Option (List Element × Bool)
  | kind :: param :: rest =>
    match parseElement kind param, parseElements rest with
    | some (e, c), some (es, cs) => some (e :: es, c || cs)
    | _, _ => none
  | _ => some ([], false)

/-- R43, R207: a template read, and whether the count or a parameter was clamped; the elements beyond the
twelfth are not stored. -/
def parseTemplate : List Byte → Option (List Element × Bool)
  | n :: rest =>
    match parseElements rest with
    | some (es, c) => some (es.take 12, c || outside 0 12 n.toNat)
    | none => none
  | [] => none

def StationEntry.bytes (e : StationEntry) : List Byte :=
  pack [(1, flag e.valid), (4, e.role.code), (2, e.jam.code), (1, 0), (8, e.node.toNat), (8, e.head)]

def ClassEntry.bytes (e : ClassEntry) : List Byte :=
  let l := e.limits
  pack [(1, flag e.valid), (2, l.material.code), (5, 0), (8, l.interval), (8, l.life), (16, l.pt),
    (8, l.margin), (8, l.tolerance), (16, l.hold), (16, l.permLimit), (16, l.elasticLimit),
    (16, l.tareLoss), (16, l.tareGain), (8, l.maxRetests), (8, l.ventThreshold), (8, l.settle),
    (8, l.strike)]

def OwnerEntry.bytes (e : OwnerEntry) : List Byte :=
  pack [(1, flag e.valid), (1, flag (e.state == .suspended)), (6, 0), (16, e.code.toNat),
    (16, e.mask.toNat), (8, e.advance), (8, e.passTemplate)]

def RecallEntry.bytes (e : RecallEntry) : List Byte :=
  pack [(1, flag e.valid), (1, flag e.ownerAny), (1, flag e.classAny), (1, flag (e.action == .scrap)),
    (4, 0), (16, e.owner.toNat), (8, e.cls), (32, e.first), (32, e.last)]

def GlyphEntry.bytes (e : GlyphEntry) : List Byte := byte e.width :: e.columns.map (·.zeroExtend 8)

def Element.bytes : Element → List Byte
  | .glyph c => [0, byte c]
  | .space n => [1, byte n]
  | .month => [2, 0]
  | .year => [3, 0]
  | .plant => [4, 0]
  | .pressure => [5, 0]
  | .serialTail => [6, 0]

def templateBytes (es : List Element) : List Byte := byte es.length :: es.flatMap Element.bytes

/-! ## The track record (R205) -/

/-- R205: TRACK_READ data: 359 bits in 45 bytes. `fill k` is what field `k` of an absent part sends where
the layout states no value (log 8). -/
def TrackEntry.bytes (e : TrackEntry) (fill : Nat → Nat) : List Byte :=
  let r := e.record
  let identity : List (Nat × Nat) := match r.identity with
    | none => [(32, 0), (16, 0), (6, 0), (7, 0), (4, 0), (15, 0), (7, 0)]
    | some i => [(32, i.serial), (16, i.owner.toNat), (6, i.cls), (7, i.lastYear), (4, i.lastMonth),
        (15, i.tare), (7, i.mfgYear)]
  let quality : Nat := match r.identity with
    | none => 0
    | some i => match i.quality with
      | .good => 1
      | .weak => 2
  let cls : List (Nat × Nat) := match r.classSnap with
    | none => [(2, 3), (8, fill 0), (7, fill 1), (10, fill 2), (8, fill 3), (6, fill 4), (10, fill 5),
        (9, fill 6), (15, fill 7), (9, fill 8), (13, fill 9), (2, fill 10), (5, fill 11), (7, fill 12),
        (2, fill 13)]
    | some l => [(2, l.material.code), (8, l.interval), (7, l.life), (10, l.pt), (8, l.margin),
        (6, l.tolerance), (10, l.hold), (9, l.permLimit), (15, l.elasticLimit), (9, l.tareLoss),
        (13, l.tareGain), (2, l.maxRetests), (5, l.ventThreshold), (7, l.settle), (2, l.strike)]
  let owner : List (Nat × Nat) := match r.ownerSnap with
    | none => [(5, 31), (4, fill 14)]
    | some o => [(5, o.advance), (4, o.passTemplate)]
  let weight : List (Nat × Nat) := match r.weight with
    | .absent => [(2, 0), (18, fill 15)]
    | .lost => [(2, 1), (18, fill 15)]
    | .measured g stable => [(2, if stable then 3 else 2), (18, g)]
  let grade : List (Nat × Nat) := match r.grade with
    | .absent => [(2, 0), (3, fill 16)]
    | .lost => [(2, 1), (3, fill 16)]
    | .graded g => [(2, 2), (3, g)]
  let hydro : List (Nat × Nat) := match r.hydro with
    | none => [(3, 7), (15, fill 17), (15, fill 18), (10, fill 19), (10, fill 20), (2, fill 21),
        (7, fill 22), (4, 0)]
    | some h => [(3, h.verdict.code), (15, h.et), (15, h.ep), (10, h.ratio), (10, h.peak),
        (2, h.retests)] ++
        match h.date with
        | none => [(7, fill 22), (4, 0)]
        | some d => [(7, d.year), (4, d.month)]
  bytesOfBits
    (packBits ([(8, e.gen.toNat), (4, e.place.code), (3, r.disposition.code), (2, r.due.code),
        (2, quality)] ++ identity ++ cls ++ owner ++ weight ++ grade) ++
      findingBits r.findings ++
      packBits (hydro ++ [(3, r.stampStatus.code), (2, optCode RouteA.code r.routeA),
        (2, optCode RouteB.code r.routeB),
        (2, match r.reservation with
          | none => 0
          | some q => q.code), (1, flag r.atGate)]))

/-! ## Notices (R206) -/

/-- R206: a RESULT notice. -/
def ResultRecord.payload (r : ResultRecord) : List Byte :=
  let identity : List Byte := match r.identity with
    | none => full' 0 ++ half' 0 ++ [255]
    | some i => full' i.serial ++ half i.owner ++ [byte i.cls]
  let hydro : List Byte := match r.hydro with
    | none => [255] ++ half' 0 ++ half' 0 ++ half' 0 ++ half' 0 ++ [0, 255, 0]
    | some h => [byte h.verdict.code] ++ half' h.et ++ half' h.ep ++ half' h.ratio ++ half' h.peak ++
        [byte h.retests] ++
        match h.date with
        | none => [255, Config.absentMonth r.fill]
        | some d => [byte d.year, byte d.month]
  [1, byte r.ref.index, r.ref.gen] ++ identity ++ [byte r.disposition.code] ++
    bytesOfBits (findingBits r.findings ++ [false, false]) ++
    [byte (orAbsent (r.routeA.map RouteA.code)), byte (orAbsent (r.routeB.map RouteB.code)),
      byte r.stampStatus.code] ++ hydro

/-- R206: the payload of a notice. -/
def Notice.payload : Notice → List Byte
  | .event _ k arg => [2, byte k.code, byte arg]
  | .result _ r => r.payload

/-- R134: the recorder node a notice is addressed to. -/
def Notice.dst : Notice → Node
  | .event d .. => d
  | .result d _ => d

end Sys2Proof.Machine
end

