-- ==== Sys2Proof/Machine/Ops.lean ====
section
/-! DEFINITION. The operations the blocks share: counters and notices, the lines, station lookups, the
sending of orders, head records, the track table, reservations and claims, the closing list, the halt
set and the feed hold. A block has no exception entry, so none stands here. -/

namespace Sys2Proof.Machine

/-! ## One block changed -/

def State.modPins (f : Pins → Pins) (s : State) : State := { s with pins := f s.pins }
def State.modRpt (f : RingPort → RingPort) (s : State) : State := { s with rpt := f s.rpt }
def State.modSmn (f : StreamMonitor → StreamMonitor) (s : State) : State := { s with smn := f s.smn }
def State.modLsc (f : LineStop → LineStop) (s : State) : State := { s with lsc := f s.lsc }
def State.modTrk (f : TrackUnit → TrackUnit) (s : State) : State := { s with trk := f s.trk }
def State.modGateA (f : GateRecord RouteA → GateRecord RouteA) (s : State) : State :=
  { s with scr := { gate := f s.scr.gate } }
def State.modTbc (f : TestBank → TestBank) (s : State) : State := { s with tbc := f s.tbc }
def State.modFcu (f : FinishCell → FinishCell) (s : State) : State := { s with fcu := f s.fcu }
def State.modRol (f : RoleUnit → RoleUnit) (s : State) : State := { s with rol := f s.rol }
def State.modMga (f : Management → Management) (s : State) : State := { s with mga := f s.mga }
def State.modCfl (f : ConfigLoader → ConfigLoader) (s : State) : State := { s with cfl := f s.cfl }
def State.modTables (f : Tables → Tables) (s : State) : State := { s with tables := f s.tables }
def State.setOut (o : List Emission) (s : State) : State := { s with out := o }
def State.setFree (n : Nat) (s : State) : State := { s with free := n }

/-- The gate B record changed. -/
def State.modGateB (f : GateRecord RouteB → GateRecord RouteB) : State → State :=
  State.modFcu fun c => { c with gate := f c.gate }

/-- The stamp slot changed. -/
def State.modSlot (f : StampSlot → StampSlot) : State → State :=
  State.modFcu fun c => { c with slot := f c.slot }

/-- Ring proving changed. -/
def State.modProving (f : Proving → Proving) : State → State :=
  State.modRpt fun r => { r with proving := f r.proving }

/-- A command's effect as one event: `out` holds what this event puts on the lines. -/
def State.event (f : State → State) (s : State) : State := f (s.setOut [])

/-! ## Readings -/

/-- The configuration values. -/
def State.config (s : State) : Configuration := s.cfl.config

/-- The part holds the role. -/
def State.isRole (r : Role) (s : State) : Bool := s.rol.role == some r

/-- R163: the part processes reports: ACTIVE or SHADOW role. -/
def State.tracking (s : State) : Bool := s.isRole .active || s.isRole .shadow

/-- R130: the part's own node: 62 while LOADING, then the configured one. -/
def State.ownNode (s : State) : Node := if s.cfl.loading then defaultNode else s.config.own

/-- R145, R192: the part sees its lines while the bypass relay is open. -/
def State.onRing (s : State) : Bool := !s.pins.relayClosed

/-- Milliseconds of a time given in seconds. -/
def seconds (n : Nat) : Nat := n * 1000

/-! ## Counters and notices -/

/-- R187: one counter's value. -/
def State.counter (c : Counter) (s : State) : Nat := s.mga.counters.getD c.index 0

/-- R187: a counter raised by `n`, saturating. -/
def State.count (c : Counter) (n : Nat) : State → State :=
  State.modMga fun m =>
    { m with counters := m.counters.set c.index (saturate (m.counters.getD c.index 0) n) }

/-- R32: a report with no effect in the state it found. -/
def State.stray : State → State := State.count .stray 1

/-- The capacities of the insert queues (R132 to R134). -/
def orderCapacity : Nat := 24
def replyCapacity : Nat := 4
def noticeCapacity : Nat := 24
def outstandingCapacity : Nat := 16
def expectationCapacity : Nat := 16

/-- R134: the notice queue has a free place. -/
def State.noticeRoom (s : State) : Bool := s.rpt.notices.length < noticeCapacity

/-- R134: a notice joins the queue. -/
def State.pushNotice (n : Notice) : State → State :=
  State.modRpt fun r => { r with notices := r.notices ++ [n] }

/-- R134, R190: an event notice is issued, or dropped and counted. -/
def State.notify (k : EventKind) (arg : Nat) (s : State) : State :=
  if s.noticeRoom then s.pushNotice (.event s.config.recorder k arg) else s.count .eventsDropped 1

/-- The next free value's number is used up. -/
def State.useFree (s : State) : State := s.setFree (s.free + 1)

/-! ## The lines (R131, R141) -/

/-- The part puts something on one of its lines. -/
def State.emit (e : Emission) (s : State) : State := s.setOut (s.out ++ [e])

/-- Several frames go out on the ring, in order. -/
def State.emitRing (fs : List (List Byte)) (s : State) : State :=
  s.setOut (s.out ++ fs.map Emission.ring)

/-- R131: the frame under way has been sent whole, and the held frames follow it. -/
def State.finishSending (s : State) : State :=
  match s.rpt.sending with
  | none => s
  | some e =>
    ((s.emit e).emitRing s.rpt.repeatBuf).modRpt fun r => { r with sending := none, repeatBuf := [] }

/-- How many bytes the frames have. -/
def totalBytes (fs : List (List Byte)) : Nat := (fs.map List.length).sum

/-- R131: a received frame is repeated. While the part sends a frame of its own on the ring it is held;
once more bytes have arrived than that frame has, the frame has been sent whole (log 4). -/
def State.repeatFrame (raw : List Byte) (s : State) : State :=
  match s.rpt.sending with
  | some (.ring own) =>
    let held := s.rpt.repeatBuf ++ [raw]
    let s := s.modRpt fun r => { r with repeatBuf := held }
    if totalBytes held ≤ own.length then s else s.finishSending
  | _ => s.emit (.ring raw)

/-! ## Stations (R31, R33) -/

/-- R31: the valid station entry that holds a node. -/
def State.stationOf (node : Node) (s : State) : Option Nat :=
  s.tables.station.findIdx? fun e => e.valid && e.node == node

/-- A station entry. -/
def State.station (e : Nat) (s : State) : StationEntry := s.tables.station.getD e StationEntry.reset

/-- R33: the node of the valid entry that holds a role (other than HEAD). -/
def State.roleNode (r : StationRole) (s : State) : Option Node :=
  (s.tables.station.find? fun e => e.valid && e.role == r).map StationEntry.node

/-- R33: the node of the valid entry that holds role HEAD with head number `n`. -/
def State.headNode (n : Nat) (s : State) : Option Node :=
  (s.tables.station.find? fun e => e.valid && e.role == .head && e.head == n).map StationEntry.node

/-- The stream record of a station entry. -/
def State.stream (e : Nat) (s : State) : StreamRecord := s.smn.streams.getD e StreamRecord.reset

/-- R49: the stream of a station entry is DEGRADED. -/
def State.degraded (e : Nat) (s : State) : Bool := (s.stream e).state == .degraded

/-! ## Heads -/

/-- The record of head `n`. -/
def State.head (n : Nat) (s : State) : HeadRecord := s.tbc.heads.getD n HeadRecord.reset

/-- The record of head `n` changed. -/
def State.modHead (n : Nat) (f : HeadRecord → HeadRecord) : State → State :=
  State.modTbc fun t => { t with heads := t.heads.set n (f (t.heads.getD n HeadRecord.reset)) }

/-- R79, R80: the head goes to PRESSURIZING and its ramp timer starts. -/
def State.startRamp (n : Nat) (s : State) : State :=
  s.modHead n fun h =>
    { h with state := .pressurizing, timer := some ⟨.ramp, seconds s.config.rampTimeout⟩ }

/-- R80: a head in LOADED leaves it for PRESSURIZING; in any other state nothing happens. -/
def State.leaveLoaded (n : Nat) (s : State) : State :=
  if (s.head n).state = .loaded then s.startRamp n else s

/-! ## The track table -/

/-- Entry `i` of the track table. -/
def State.entry (i : Nat) (s : State) : TrackEntry := s.trk.table.getD i TrackEntry.fresh

/-- The record of entry `i`. -/
def State.record (i : Nat) (s : State) : TrackRecord := (s.entry i).record

/-- Entry `i` changed. -/
def State.modEntry (i : Nat) (f : TrackEntry → TrackEntry) : State → State :=
  State.modTrk fun t => { t with table := t.table.set i (f (t.table.getD i TrackEntry.fresh)) }

/-- The record of entry `i` changed. -/
def State.modRecord (i : Nat) (f : TrackRecord → TrackRecord) : State → State :=
  State.modEntry i fun e => { e with record := f e.record }

/-- R5: the location field of entry `i` rewritten. -/
def State.setPlace (i : Nat) (p : Location) : State → State := State.modEntry i fun e => { e with place := p }

/-- R2: the track reference of entry `i`. -/
def State.refOf (i : Nat) (s : State) : TrackRef := ⟨i, (s.entry i).gen⟩

/-- R2: a reference is current: its index is 0 to 79, the entry is in use and the generation agrees. -/
def State.current (r : TrackRef) (s : State) : Bool :=
  r.index < 80 && (s.entry r.index).place != .free && (s.entry r.index).gen == r.gen

/-- R1: the track occupancy: the entries in use. -/
def State.occupancy (s : State) : Nat := s.trk.table.countP fun e => e.place != .free

/-- R1: the lowest-numbered FREE entry. -/
def State.lowestFree (s : State) : Option Nat := s.trk.table.findIdx? fun e => e.place == .free

/-- R15, R16: a finding is added to entry `i`, and its disposition recomputed. -/
def State.addFinding (i : Nat) (f : Finding) (s : State) : State :=
  s.modRecord i (TrackRecord.addFinding s.config.unknownOwner f)

/-- A finding is added where a condition holds. -/
def State.addFindingIf (c : Bool) (i : Nat) (f : Finding) (s : State) : State :=
  if c then s.addFinding i f else s

/-- The hydro result of entry `i` changed, created first if it is absent (R4). -/
def State.modHydro (i : Nat) (f : Hydro → Hydro) : State → State :=
  State.modRecord i fun r => { r with hydro := some (f (r.hydro.getD Hydro.fresh)) }

/-- The class snapshot of entry `i`. No test or tare step needs one that is absent (R37, log 22). -/
def State.limits (i : Nat) (s : State) : ClassLimits := (s.record i).classSnap.getD ClassLimits.reset

/-- R2, R4: an entry freed: generation advanced, record reset, location FREE. -/
def TrackEntry.freed (e : TrackEntry) : TrackEntry :=
  { gen := e.gen + 1, place := .free, record := TrackRecord.fresh }

/-! ## Expectations and divergences (R167, R171) -/

/-- R171: one divergence: the counter, the count held at 255, and the unfit flag when the count reaches 8. -/
def State.diverge (s : State) : State :=
  let n := min (s.rol.divergence + 1) 255
  let s := (s.count .divergences 1).modRol fun r => { r with divergence := n }
  if n = 8 ∧ s.rol.unfit = false then
    (s.modRol fun r => { r with unfit := true }).notify .divergenceLimit n
  else s

/-- The head that holds the entry a reference names (log 26). -/
def State.headOf (r : TrackRef) (s : State) : Option Nat :=
  if (s.entry r.index).gen = r.gen then s.tbc.heads.findIdx? fun h => h.cylinder == some r.index
  else none

/-- R80, R167, R170: an expectation went without a match; if it is a TEST, the head that holds its entry
leaves LOADED. -/
def State.expectationDropped (o : Order) (s : State) : State :=
  match o with
  | .test ref .. => match s.headOf ref with
    | some n => s.leaveLoaded n
    | none => s
  | _ => s

/-- R167: a full list gives up its oldest expectation, with one divergence. -/
def State.dropOldestExpectation (s : State) : State :=
  match s.rol.expectations with
  | [] => s
  | e :: rest =>
    ((s.modRol fun r => { r with expectations := rest }).diverge).expectationDropped e.order

/-- R167: an expectation joins the list. -/
def State.expect (dst : Node) (o : Order) (s : State) : State :=
  let s := if s.rol.expectations.length < expectationCapacity then s else s.dropOldestExpectation
  s.modRol fun r => { r with expectations := r.expectations ++ [⟨dst, o, 2 * s.config.ringReturn⟩] }

/-! ## Sending an order (R33, R132, R167) -/

/-- R132: an order is given to the order queue, or dropped and counted. -/
def State.enqueueOrder (dst : Node) (o : Order) (s : State) : State :=
  if s.rpt.orders.length < orderCapacity then
    s.modRpt fun r => { r with orders := r.orders ++ [⟨dst, o⟩] }
  else s.count .ordersDropped 1

/-- R33, R163, R167: an order is built: to the order queue in ACTIVE role, to the expectation list in
SHADOW role; without a destination it is dropped and counted. In TRANSPARENT role none is built. -/
def State.send (dst : Option Node) (o : Order) (s : State) : State :=
  if s.tracking then
    match dst with
    | none => s.count .ordersDropped 1
    | some d => if s.isRole .active then s.enqueueOrder d o else s.expect d o
  else s

/-- An order to head `n`'s station. -/
def State.sendHead (n : Nat) (o : Order) (s : State) : State := s.send (s.headNode n) o

/-! ## The halt set (R156, R157) -/

/-- R157: HALT is built when the set goes from empty to non-empty. -/
def State.addCause (c : Cause) (s : State) : State :=
  let was := s.lsc.halt.isEmpty
  let s := s.modLsc fun l => { l with halt := l.halt.add c }
  if was && !s.lsc.halt.isEmpty then s.send (some broadcast) .halt else s

/-- R157: RESUME is built when the set goes from non-empty to empty. -/
def State.removeCause (c : Cause) (s : State) : State :=
  let was := s.lsc.halt.isEmpty
  let s := s.modLsc fun l => { l with halt := l.halt.remove c }
  if !was && s.lsc.halt.isEmpty then s.send (some broadcast) .resume else s

/-! ## The feed hold (R159, R160) -/

/-- R159: TRK reports an IQ occupancy to LSC. -/
def State.reportIq (n : Nat) (s : State) : State :=
  let s := match s.lsc.feed with
    | .go =>
      if s.config.iqHigh ≤ n then
        (s.modLsc fun l => { l with feed := .hold }).send (s.roleNode .induction) .feedHold
      else s
    | .hold =>
      if n ≤ s.config.iqLow then
        (s.modLsc fun l => { l with feed := .go }).send (s.roleNode .induction) .feedGo
      else if s.lsc.lastIq < n then s.send (s.roleNode .induction) .feedHold
      else s
  s.modLsc fun l => { l with lastIq := n }

/-- R6: IQ changes, and the new occupancy is reported. -/
def State.setIq (q : List Nat) (s : State) : State :=
  (s.modTrk fun t => { t with iq := q }).reportIq q.length

/-! ## Reservations and claims (R11 to R13) -/

/-- R5: the capacity of a queue. -/
def Queue.capacity : Queue → Nat
  | .fq => 16
  | .xq => 24
  | .gq => 4

/-- The intake queue holds 24 entries (R5). -/
def iqCapacity : Nat := 24

/-- The occupancy of a queue. -/
def State.occupied (q : Queue) (s : State) : Nat :=
  match q with
  | .fq => s.trk.fq.length
  | .xq => s.trk.xq.length
  | .gq => s.trk.gq.length

/-- R11: a stranger marker in the slot holds a GQ reservation once its STAMP has been built. -/
def State.markerReserves (s : State) : Bool :=
  match s.fcu.slot.content with
  | .marker _ => s.fcu.slot.stage == .sent
  | _ => false

/-- R11: the number of holders whose held reservation names a queue. -/
def State.reserved (q : Queue) (s : State) : Nat :=
  (s.trk.table.countP fun e => e.record.reservation == some q) +
    if q = .gq ∧ s.markerReserves = true then 1 else 0

/-- R13: occupancy plus reservations is below the capacity. -/
def State.room (q : Queue) (s : State) : Bool := s.occupied q + s.reserved q < q.capacity

/-- R11: a reservation is taken for an entry. -/
def State.reserve (i : Nat) (q : Queue) : State → State :=
  State.modRecord i fun r => { r with reservation := some q }

/-- R12: an entry's reservation ends. -/
def State.dropReservation (i : Nat) : State → State :=
  State.modRecord i fun r => { r with reservation := none }

/-- R13: a claim is lodged behind the others. -/
def State.lodge (q : Queue) (c : Claimant) : State → State :=
  State.modTrk fun t => { t with claims := t.claims ++ [⟨q, c⟩] }

/-- The entry a claimant names. -/
def Claimant.entry : Claimant → Option Nat
  | .gateA i => some i
  | .head _ i => some i
  | .stampSlot => none

/-- R13: an entry's claims are withdrawn without a grant. -/
def State.withdrawEntry (i : Nat) : State → State :=
  State.modTrk fun t => { t with claims := t.claims.filter fun c => c.holder.entry != some i }

/-- R13: the stamp slot's claim is withdrawn without a grant. -/
def State.withdrawSlot : State → State :=
  State.modTrk fun t => { t with claims := t.claims.filter fun c => c.holder != .stampSlot }

/-! ## Joining a queue -/

/-- An item joins the tail of GQ; an entry has location GATE_B from then on. -/
def State.joinGq (it : Item) (s : State) : State :=
  let s := s.modTrk fun t => { t with gq := t.gq ++ [it] }
  match it with
  | .entry i => s.setPlace i .gateB
  | .marker => s

/-- An entry joins the tail of XQ. -/
def State.joinXq (i : Nat) (s : State) : State :=
  (s.modTrk fun t => { t with xq := t.xq ++ [i] }).setPlace i .finish

/-- An entry joins the tail of FQ (the loader arbiter looks at it afterwards). -/
def State.joinFq (i : Nat) (s : State) : State :=
  (s.modTrk fun t => { t with fq := t.fq ++ [i] }).setPlace i .feed

/-! ## The closing list (R20, R21) -/

/-- R189: the RESULT notice of an entry as it stands. -/
def State.resultOf (i : Nat) (s : State) : ResultRecord :=
  let r := s.record i
  { ref := s.refOf i, identity := r.identity, disposition := r.disposition, findings := r.findings,
    routeA := r.routeA, routeB := r.routeB, hydro := r.hydro, stampStatus := r.stampStatus,
    fill := s.free }

/-- R20 steps 2 and 3: the oldest entry is counted by its disposition and freed. -/
def State.closeOldest (i : Nat) (rest : List Nat) (s : State) : State :=
  ((s.count (s.record i).disposition.counter 1).modEntry i TrackEntry.freed).modTrk
    fun t => { t with closing := rest }

/-- R20, R21: one service of the closing list, if it can be made now. -/
def State.serveClosingOnce (s : State) : State :=
  match s.trk.closing with
  | [] => s
  | i :: rest =>
    if s.isRole .active then
      if s.noticeRoom then
        ((s.pushNotice (.result s.config.recorder (s.resultOf i))).useFree).closeOldest i rest
      else s
    else if s.isRole .shadow then s.closeOldest i rest
    else s

/-- R20: the service repeated. -/
def State.serveClosingTimes : Nat → State → State
  | 0, s => s
  | n + 1, s => serveClosingTimes n s.serveClosingOnce

/-- R20, R21: the closing list is served as long as it can be. -/
def State.serveClosing (s : State) : State := s.serveClosingTimes s.trk.closing.length

/-- An entry is appended to the closing list. -/
def State.joinClosing (i : Nat) (s : State) : State :=
  (s.modTrk fun t => { t with closing := t.closing ++ [i] }).setPlace i .closing

/-- R20: an entry has joined the closing list and an event notice is issued in the same event: either may
be the first to reach the notice queue (log 7). -/
def State.closeAndNotify (k : EventKind) (arg : Nat) (s : State) : State :=
  if Config.resultFirst s.free then (s.useFree.serveClosing).notify k arg
  else (s.useFree.notify k arg).serveClosing

/-! ## Replies (R133, R180) -/

/-- R133: a reply joins the queue. -/
def State.pushReply (r : Reply) : State → State :=
  State.modRpt fun p => { p with replies := p.replies ++ [r] }

/-- R129: the reply queue has a free place. -/
def State.replyRoom (s : State) : Bool := s.rpt.replies.length < replyCapacity

end Sys2Proof.Machine
end

