-- ==== Sys2Proof/Machine/Compose.lean ====
section
/-! DEFINITION. Choosing, composing and sending a stamp image (R113 to R118). -/

namespace Sys2Proof.Machine

/-- R115: what an element yields: glyphs by code, and runs of blank columns. -/
inductive Piece where
  | glyph (code : Nat)
  | blank (columns : Nat)
  deriving DecidableEq, Repr

/-- R116: an image has at most 96 columns. -/
def imageMax : Nat := 96

/-- R118: a segment has at most 40 columns. -/
def segmentMax : Nat := 40

/-- R46: the effective plant mark: the override, or the configured mark. -/
def State.plantMark (s : State) : List Nat := s.mga.override.getD s.config.plantMark

/-- Glyph entry `code`. -/
def State.glyph (code : Nat) (s : State) : GlyphEntry := s.tables.glyph.getD code GlyphEntry.reset

/-- R115: two digit glyphs, with a leading 0. A digit uses the glyph of its value (R42). -/
def twoDigits (n : Nat) : List Piece := [.glyph (n / 10 % 10), .glyph (n % 10)]

/-- R115: the digits of floor(Pt / 10), without a leading zero. -/
def pressureDigits (pt : Nat) : List Piece :=
  let mpa := pt / 10
  if mpa < 10 then [.glyph mpa] else [.glyph (mpa / 10), .glyph (mpa % 10)]

/-- R115: the serial modulo 10000 as four digits. -/
def serialDigits (serial : Nat) : List Piece :=
  let n := serial % 10000
  [.glyph (n / 1000), .glyph (n / 100 % 10), .glyph (n / 10 % 10), .glyph (n % 10)]

/-- R115: the date MONTH and YEAR use: the hydro result's test date, else the current date. -/
def State.stampDate (r : TrackRecord) (s : State) : Option Date :=
  match r.hydro.bind Hydro.date with
  | some d => some d
  | none => s.mga.date

/-- R115: what one element yields for a record; none where it cannot yield its value. -/
def State.yields (r : TrackRecord) (e : Element) (s : State) : Option (List Piece) :=
  match e with
  | .glyph c => some [.glyph c]
  | .space n => some [.blank n]
  | .month => (s.stampDate r).map fun d => twoDigits d.month
  | .year => (s.stampDate r).map fun d => twoDigits d.year
  | .plant => some ((s.plantMark.filter fun c => c != 63).map Piece.glyph)
  | .pressure => r.classSnap.map fun l => pressureDigits l.pt
  | .serialTail => r.identity.map fun i => serialDigits i.serial

/-- R115: what a template's elements yield, in order. -/
def State.yieldsAll (r : TrackRecord) (es : List Element) (s : State) : Option (List Piece) :=
  match es with
  | [] => some []
  | e :: rest =>
    match s.yields r e, s.yieldsAll r rest with
    | some a, some b => some (a ++ b)
    | _, _ => none

/-- A piece is a glyph. -/
def Piece.isGlyph : Piece → Bool
  | .glyph _ => true
  | .blank _ => false

/-- R116: pieces turned into columns: each glyph but the final one is followed by one blank column. -/
def State.columnsOf (ps : List Piece) (s : State) : List Column :=
  match ps with
  | [] => []
  | .glyph c :: rest =>
    let g := s.glyph c
    g.columns.take g.width ++ (if rest.any Piece.isGlyph then [0] else []) ++ s.columnsOf rest
  | .blank n :: rest => List.replicate n 0 ++ s.columnsOf rest

/-- R117: a glyph whose width is 0 is undefined. -/
def State.pieceDefined (s : State) : Piece → Bool
  | .glyph c => (s.glyph c).width != 0
  | .blank _ => true

/-- R115 to R117: the image of a template for a record, none where the composition fails. -/
def State.compose (r : TrackRecord) (es : List Element) (s : State) : Option (List Column) :=
  if es.isEmpty then none
  else match s.yieldsAll r es with
    | none => none
    | some ps =>
      let cols := s.columnsOf ps
      if ps.all s.pieceDefined && ps.any Piece.isGlyph && cols.length ≤ imageMax then some cols
      else none

/-- R113: what a STAMP order carries for an entry. -/
inductive ImageChoice where
  /-- a zero-column stamp -/
  | blank
  /-- a composed image -/
  | image (columns : List Column)
  /-- the composition failed (R117) -/
  | failed
  deriving DecidableEq, Repr

/-- A composition's result as a choice. -/
def ImageChoice.ofComposed : Option (List Column) → ImageChoice
  | some cols => .image cols
  | none => .failed

/-- R113: chosen from the disposition and the hydro verdict standing now. -/
def State.chooseImage (r : TrackRecord) (s : State) : ImageChoice :=
  match r.disposition with
  | .requalified =>
    if r.hydro.map Hydro.verdict = some .pass then
      match r.ownerSnap with
      | none => .failed
      | some o => .ofComposed (s.compose r (s.tables.template.getD o.passTemplate []))
    else .blank
  | .condemned => .ofComposed (s.compose r (s.tables.template.getD s.config.condemn []))
  | _ => .blank

/-- R118: the segment count of an image. -/
def segmentCount (columns : Nat) : Nat :=
  if columns ≤ 40 then 1 else if columns ≤ 80 then 2 else 3

/-- R118: the columns of segment `k`. -/
def segmentColumns (k : Nat) (cols : List Column) : List Column :=
  (cols.drop (segmentMax * k)).take segmentMax

/-- R118: the STAMP order of segment `k`. -/
def Image.order (img : Image) (ref : Option TrackRef) (k : Nat) : Order :=
  .stamp ref k img.segments img.strike (segmentColumns k img.columns)

/-- The track reference the slot's STAMP orders carry; none for a marker. -/
def State.slotRef (s : State) : Option TrackRef :=
  match s.fcu.slot.content with
  | .entry i => some (s.refOf i)
  | _ => none

/-- R107, R118: every segment of the held image is built, in index order. -/
def State.sendImage (img : Image) (s : State) : State :=
  let ref := s.slotRef
  (List.range img.segments).foldl (fun s k => s.send (s.roleNode .stamp) (img.order ref k)) s

/-- R113, R118: an image made of columns, held, and its orders built. -/
def State.holdAndSend (cols : List Column) (strike : Nat) (s : State) : State :=
  let img : Image := { columns := cols, segments := segmentCount cols.length, strike := strike }
  (s.modSlot fun c => { c with image := some img }).sendImage img

/-- R118: the stamp status of an entry is set. -/
def State.setStampStatus (i : Nat) (st : StampStatus) : State → State :=
  State.modRecord i fun r => { r with stampStatus := st }

/-- R114: the composing event of the slot's content: the image is chosen and composed, or the failure of
R117 met, and the STAMP orders are built. -/
def State.composeSlot (s : State) : State :=
  match s.fcu.slot.content with
  | .empty => s
  | .marker _ => s.holdAndSend [] 0
  | .entry i =>
    let r := s.record i
    let strike := (r.classSnap.map ClassLimits.strike).getD 0
    match s.chooseImage r with
    | .image cols => (s.holdAndSend cols strike).setStampStatus i .sent
    | .blank => (s.holdAndSend [] strike).setStampStatus i .skipped
    | .failed =>
      ((s.addFinding i .stampComposeFail).holdAndSend [] strike).setStampStatus i .skipped

/-- R114: a GQ place is taken for the slot's content, and this is its composing event. -/
def State.takeStampPlace (s : State) : State :=
  let s := match s.fcu.slot.content with
    | .entry i => s.reserve i .gq
    | _ => s
  (s.modSlot fun c => { c with stage := .sent }).composeSlot

end Sys2Proof.Machine
end

