-- ==== Sys2Proof/Machine/Grant.lean ====
section
/-! DEFINITION. What follows when places are taken and freed: the gate A ROUTE sent, RELEASE sent, claims
granted, reservations released, entries closed LOST or placed without a reservation, the loader arbiter
(R11 to R14, R18, R66, R76, R95). -/

namespace Sys2Proof.Machine

/-! ## Gate A's ROUTE (R66) -/

/-- The ROUTE that the gate A record answers with; none while it serves nothing. -/
def State.routeAOrder (s : State) : Option Order :=
  match s.scr.gate.item, s.scr.gate.ordered, s.scr.gate.stored with
  | some (.entry i), some r, some a => some (.routeA r (s.refOf i) a)
  | _, _, _ => none

/-- R66, R68: gate A's ROUTE is built and sent. -/
def State.sendRouteA (s : State) : State :=
  match s.routeAOrder with
  | some o => s.send (s.roleNode .gateA) o
  | none => s

/-- R66: the ROUTE is sent, the at-gate mark cleared, the entry moved from IQ to the gate A slot, and the
gate goes to PENDING. -/
def State.admitGateA (i : Nat) (s : State) : State :=
  let s := s.sendRouteA
  let s := s.modRecord i fun r => { r with atGate := false }
  let s := (s.modTrk fun t => { t with gateA := some i }).setPlace i .gateA
  let s := s.setIq (s.trk.iq.erase i)
  s.modGateA fun g => { g with state := .pending }

/-! ## RELEASE (R95) -/

/-- R95: RELEASE is built for head `n`'s cylinder and the release stage becomes SENT. -/
def State.sendRelease (n i : Nat) (s : State) : State :=
  (s.sendHead n (.release (s.refOf i))).modHead n fun h => { h with release := .sent }

/-! ## Grants (R13) -/

/-- R13: a grant takes the reservation for the claim's holder, and its block sends the order. -/
def State.grantTo (c : Claim) (s : State) : State :=
  match c.holder with
  | .gateA i => (s.reserve i c.queue).admitGateA i
  | .head n i => (s.reserve i c.queue).sendRelease n i
  | .stampSlot => s.takeStampPlace

/-- R13: at a freed place of a queue its oldest claim is granted. -/
def State.grant (q : Queue) (s : State) : State :=
  if s.room q then
    match s.trk.claims.find? fun c => c.queue == q with
    | none => s
    | some c => (s.modTrk fun t => { t with claims := t.claims.erase c }).grantTo c
  else s

/-- R12: a held reservation is released, which frees a place. -/
def State.releaseReservation (i : Nat) (s : State) : State :=
  match (s.record i).reservation with
  | none => s
  | some q => (s.dropReservation i).grant q

/-! ## Closing LOST and unreserved arrivals (R14, R18, R19) -/

/-- R18: an entry is closed LOST and appended to the closing list; its location has been left. -/
def State.closeLost (i : Nat) (s : State) : State :=
  let s := s.modRecord i fun r => { r with disposition := .lost }
  ((s.releaseReservation i).withdrawEntry i).joinClosing i

/-- R14, R19, R108: the overrun counter and the OVERRUN cause. -/
def State.overrun (s : State) : State := (s.count .overrun 1).addCause .overrun

/-- R14: an entry for which a queue has no room: closed LOST, with the OVERRUN cause, count and notice. -/
def State.closeForRoom (i : Nat) (s : State) : State :=
  ((s.closeLost i).overrun).closeAndNotify .overrun i

/-- R14: an entry without a reservation arrives at XQ. -/
def State.arriveXq (i : Nat) (s : State) : State :=
  if s.room .xq then s.joinXq i else s.closeForRoom i

/-! ## The loader arbiter (R76) -/

/-- The lowest-numbered EMPTY head. -/
def State.emptyHead (s : State) : Option Nat := s.tbc.heads.findIdx? fun h => h.state == .empty

/-- R76 steps 2 to 5, R99: the FQ head `i` is assigned to head `n`; `order` says whether ASSIGN is built. -/
def State.assignTo (n i : Nat) (order : Bool) (s : State) : State :=
  let s := if order then s.send (s.roleNode .loader) (.assign n (s.refOf i)) else s
  let s := (s.modTrk fun t => { t with fq := t.fq.erase i }).setPlace i (.head n)
  let s := s.modHead n fun h => { h with state := .assigned, cylinder := some i }
  let s := s.modTbc fun t =>
    { t with loader := { serving := some n, timer := some (seconds s.config.loadTimeout) } }
  s.grant .fq

/-- R76: the arbiter assigns when the loader is IDLE, FQ holds an entry and a head is EMPTY. -/
def State.assignLoader (s : State) : State :=
  match s.tbc.loader.serving, s.trk.fq, s.emptyHead with
  | none, i :: _, some n => s.assignTo n i true
  | _, _, _ => s

/-- R76: the loader becomes IDLE, its timer stopped. -/
def State.idleLoader : State → State := State.modTbc fun t => { t with loader := Loader.reset }

/-- R14: an entry without a reservation arrives at FQ. -/
def State.arriveFq (i : Nat) (s : State) : State :=
  if s.room .fq then (s.joinFq i).assignLoader else s.closeForRoom i

/-- R96, R98: the head loses its cylinder: FAULTED if its faulted mark is set, else EMPTY, and the arbiter
looks at a head that became EMPTY. -/
def State.vacateHead (n : Nat) (s : State) : State :=
  if (s.head n).faulted then s.modHead n fun _ => { HeadRecord.reset with state := .faulted }
  else (s.modHead n fun _ => HeadRecord.reset).assignLoader

end Sys2Proof.Machine
end

