-- ==== Sys2Proof/Machine/Intake.lean ====
section
/-! DEFINITION. Intake and gate A (chapter 3): the induction tag, weights and grades, the gate A route and
the gate A side of the gate protocol. -/

namespace Sys2Proof.Machine

/-! ## Table lookups and dates (R50 to R56) -/

/-- R54: the month index of a date. -/
def monthIndex (year month : Nat) : Nat := year * 12 + (month - 1)

/-- R38, R51: an owner entry covers a code. -/
def OwnerEntry.covers (e : OwnerEntry) (code : Half) : Bool := (code &&& e.mask) == (e.code &&& e.mask)

/-- R51: the first valid covering owner entry. -/
def State.ownerMatch (code : Half) (s : State) : Option OwnerEntry :=
  s.tables.owner.find? fun e => e.valid && e.covers code

/-- R53: a recall entry matches an identity. -/
def RecallEntry.hits (e : RecallEntry) (id : Identity) : Bool :=
  e.valid && (e.ownerAny || e.owner == id.owner) && (e.classAny || e.cls == id.cls) &&
    e.first ≤ id.serial && id.serial ≤ e.last

/-- R53: whether a valid entry with an action matches. -/
def State.recalled (a : RecallAction) (id : Identity) (s : State) : Bool :=
  s.tables.recallList.any fun e => e.hits id && e.action == a

/-- R50: the class entry's limits, if it is valid. -/
def State.classOf (id : Identity) (s : State) : Option ClassLimits :=
  let e := s.tables.cls.getD id.cls ClassEntry.reset
  if e.valid then some e.limits else none

/-- R55: the due state of an identity at a date; elapsed months below 0 leave it UNKNOWN. -/
def dueState (id : Identity) (d : Date) (cls : Option ClassLimits) (advance : Nat) : Due :=
  let now := monthIndex d.year d.month
  let last := monthIndex id.lastYear id.lastMonth
  match cls with
  | none => .unknown
  | some l => if now < last then .unknown
    else if l.interval ≤ now - last + advance then .due else .notDue

/-- R55, R56: the last test month or the manufacture year lies in the future. -/
def dateInFuture (id : Identity) (d : Date) : Bool :=
  monthIndex d.year d.month < monthIndex id.lastYear id.lastMonth || d.year < id.mfgYear

/-- R56: the service life has ended. -/
def lifeEnded (id : Identity) (d : Date) (cls : Option ClassLimits) : Bool :=
  match cls with
  | none => false
  | some l => id.mfgYear ≤ d.year && 0 < l.life && l.life ≤ d.year - id.mfgYear

/-! ## The induction tag (R19, R47 to R56) -/

/-- R50 to R53, R55, R56: the steps for an entry with an identity. -/
def State.screenIdentity (i : Nat) (id : Identity) (s : State) : State :=
  let cls := s.classOf id
  let owner := s.ownerMatch id.owner
  let advance := (owner.map OwnerEntry.advance).getD 0
  let s := s.modRecord i fun r =>
    { r with identity := some id, classSnap := cls,
             ownerSnap := owner.map fun o => ⟨o.advance, o.passTemplate⟩ }
  let s := s.addFindingIf (id.quality == .weak) i .tagWeak
  let s := s.addFindingIf cls.isNone i .classInvalid
  let s := s.addFindingIf (owner.any fun o => o.state == .suspended) i .ownerSuspended
  let s := s.addFindingIf owner.isNone i .ownerUnknown
  let s := if s.recalled .scrap id then s.addFinding i .recallScrap
    else s.addFindingIf (s.recalled .hold id) i .recallHold
  match s.mga.date with
  | none => s
  | some d =>
    let s := s.modRecord i fun r => { r with due := dueState id d cls advance }
    let s := s.addFindingIf (dateInFuture id d) i .tagDateFuture
    s.addFindingIf (lifeEnded id d cls) i .endOfLife

/-- R1, R4, R6: the entry is taken, placed in INTAKE and appended to IQ. -/
def State.takeEntry (i : Nat) (s : State) : State :=
  let s := s.modEntry i fun e => { gen := e.gen, place := .intake, record := TrackRecord.fresh }
  s.setIq (s.trk.iq ++ [i])

/-- R19: an intake overrun; the notice carries the IQ occupancy. -/
def State.intakeOverrun (s : State) : State := (s.overrun).notify .overrun s.trk.iq.length

/-- R47: the induction TAG from station entry `e`. -/
def State.inductTag (e : Nat) (tag : TagRead) (s : State) : State :=
  match s.lowestFree with
  | none => s.intakeOverrun
  | some i =>
    if iqCapacity ≤ s.trk.iq.length then s.intakeOverrun
    else
      let doubt := s.degraded e
      let s := s.takeEntry i
      let s := match readIdentity tag with
        | none => s.addFinding i .tagNoread
        | some id => s.screenIdentity i id
      let s := s.addFindingIf doubt i .streamDegraded
      s.addFindingIf s.mga.date.isNone i .dateUnset

/-! ## Weight and grade (R49, R57 to R60) -/

/-- R57, R150: IQ entry `i` lacks its weight. -/
def State.lacksWeight (s : State) (i : Nat) : Bool :=
  (s.record i).weight == .absent && !(s.record i).atGate

/-- R60, R150: IQ entry `i` lacks its grade. -/
def State.lacksGrade (s : State) (i : Nat) : Bool :=
  (s.record i).grade == .absent && !(s.record i).atGate

/-- R59: the tare arithmetic's finding for weight `w` against stamped tare `tare` (10 g units). -/
def tareFinding (l : ClassLimits) (w tare : Nat) : Option Finding :=
  let t := tare * 10
  if w < t then
    if 0 < l.tareLoss ∧ l.tareLoss ≤ (t - w) * 1000 / t then some .tareLoss else none
  else if t < w then
    if l.tareGain < w - t then some .tareGain else none
  else none

/-- R58 steps 2 to 5: what a stored weight leads to. -/
def State.checkWeight (i w : Nat) (stable : Bool) (s : State) : State :=
  if !stable then s.addFinding i .weightUnstable
  else match (s.record i).identity, (s.record i).classSnap with
    | some id, some l =>
      if l.material = .composite then s
      else match tareFinding l w id.tare with
        | some f => s.addFinding i f
        | none => s
    | _, _ => s

/-- R58: the largest weight stored. -/
def weightMax : Nat := 250000

/-- R57, R58: a WEIGHT from station entry `e`. -/
def State.takeWeight (e : Nat) (grams : BitVec 32) (stable : Bool) (s : State) : State :=
  match s.trk.iq.find? s.lacksWeight with
  | none => s.count .unattributed 1
  | some i =>
    let w := min grams.toNat weightMax
    let s := s.modRecord i fun r => { r with weight := .measured w stable }
    (s.addFindingIf (s.degraded e) i .streamDegraded).checkWeight i w stable

/-- R60: the finding a grade maps to. -/
def gradeFinding (g : Nat) : Option Finding :=
  if g ≤ 1 then none else if g = 7 then some .gradeHold else some .gradeReject

/-- R60: a GRADE from station entry `e`. -/
def State.takeGrade (e : Nat) (grade : Byte) (s : State) : State :=
  match s.trk.iq.find? s.lacksGrade with
  | none => s.count .unattributed 1
  | some i =>
    let g := min grade.toNat 7
    let s := s.modRecord i fun r => { r with grade := .graded g }
    let s := s.addFindingIf (s.degraded e) i .streamDegraded
    match gradeFinding g with
    | some f => s.addFinding i f
    | none => s

/-! ## The gate A route (R62, R63, R66) -/

/-- R62: the weight counts as missing. -/
def TrackRecord.weightMissing (r : TrackRecord) : Bool :=
  match r.weight with
  | .measured .. => false
  | _ => match r.classSnap with
    | some l => l.material != .composite
    | none => true

/-- R62: the grade counts as missing. -/
def TrackRecord.gradeMissing (r : TrackRecord) : Bool :=
  match r.grade with
  | .graded _ => false
  | _ => true

/-- R62: the findings for missing measurements. -/
def State.addMissing (i : Nat) (s : State) : State :=
  let r := s.record i
  (s.addFindingIf r.weightMissing i .weightMissing).addFindingIf r.gradeMissing i .gradeMissing

/-- R62: the route of a record as it stands. -/
def routeAOf (action : UnknownOwner) (r : TrackRecord) : RouteA :=
  if r.disposition = .hold ∨ r.disposition = .condemned then .bypass
  else if r.due = .notDue ∨ (r.findings.contains .ownerUnknown = true ∧ action = .returnBack) then .returnBack
  else .bank

/-- R66: the queue whose place a route needs. -/
def RouteA.queue : RouteA → Option Queue
  | .bank => some .fq
  | .bypass => some .xq
  | .returnBack => none

/-- R66: the route of IQ entry `i`, standing in the gate record, is sent or deferred. -/
def State.sendOrDeferA (i : Nat) (route : RouteA) (s : State) : State :=
  let s := s.modGateA fun g => { g with ordered := some route }
  match route.queue with
  | none => s.admitGateA i
  | some q =>
    if s.room q then (s.reserve i q).admitGateA i
    else
      let s := (s.lodge q (.gateA i)).modRecord i fun r => { r with atGate := true }
      s.modGateA fun g => { g with state := .deferred }

/-- R65: gate A serves IQ entry `i` for an arrival number. -/
def State.serveGateA (i : Nat) (arrival : Byte) (s : State) : State :=
  let s := s.addMissing i
  let s := s.modGateA fun g => { g with item := some (.entry i), stored := some arrival }
  s.sendOrDeferA i (routeAOf s.config.unknownOwner (s.record i))

/-- R63: a finding has been added to entry `i`; if it waits at gate A, its route is recomputed. -/
def State.rerouteGateA (i : Nat) (s : State) : State :=
  if s.scr.gate.state = .deferred ∧ s.scr.gate.item = some (.entry i) then
    let s := s.addMissing i
    let route := routeAOf s.config.unknownOwner (s.record i)
    if s.scr.gate.ordered = some route then s
    else (s.withdrawEntry i).sendOrDeferA i route
  else s

/-! ## The gate protocol at gate A (R64 to R71) -/

/-- R65: an AT_GATE while gate A is IDLE. -/
def State.idleGateA (arrival : Byte) (s : State) : State :=
  if s.scr.gate.last = some arrival then s.stray
  else match s.trk.iq with
    | [] => s.stray
    | i :: _ => s.serveGateA i arrival

/-- R70, R71: the passage taken: last arrival number from the stored one, the gate IDLE. -/
def GateRecord.passed {ρ : Type} (g : GateRecord ρ) : GateRecord ρ :=
  { state := .idle, item := none, stored := none, ordered := none, last := g.stored }

/-- R17: RETURNED at the passage, if the entry was PENDING. -/
def TrackRecord.returned (r : TrackRecord) : TrackRecord :=
  if r.disposition = .pending then { r with disposition := .returned } else r

/-- The gate A route history of entry `i` records the route taken. -/
def State.recordRouteA (i : Nat) (route : RouteA) : State → State :=
  State.modRecord i fun r => { r with routeA := some route }

/-- The gate A slot is left and the gate returns to IDLE. -/
def State.leaveGateA (s : State) : State :=
  (s.modTrk fun t => { t with gateA := none }).modGateA GateRecord.passed

/-- R17, R70: an entry leaves by the return conveyor. -/
def State.passReturn (i : Nat) (s : State) : State :=
  ((s.modRecord i TrackRecord.returned).joinClosing i).serveClosing

/-- R70: entry `i` passes gate A on the ordered route; its reservation converts. -/
def State.passOrderedA (i : Nat) (route : RouteA) (s : State) : State :=
  let s := ((s.recordRouteA i route).dropReservation i).leaveGateA
  match route with
  | .bank => (s.joinFq i).assignLoader
  | .bypass => s.joinXq i
  | .returnBack => s.passReturn i

/-- R71: entry `i` passes gate A on another route than the ordered one. -/
def State.deviateA (i : Nat) (route : RouteA) (s : State) : State :=
  let s := (s.addFinding i .routeDeviation).recordRouteA i route
  let s := (s.releaseReservation i).leaveGateA
  match route with
  | .bank => s.arriveFq i
  | .bypass => s.arriveXq i
  | .returnBack => s.passReturn i

/-- R69 step 1: the served entry is completed by implicit passage on its ordered route. -/
def State.implicitPassA (s : State) : State :=
  match s.scr.gate.item, s.scr.gate.ordered with
  | some (.entry i), some route => (s.addFinding i .implicitPass).passOrderedA i route
  | _, _ => s.leaveGateA

/-- R65, R67 to R69: an AT_GATE at gate A. -/
def State.atGateA (arrival : Byte) (s : State) : State :=
  match s.scr.gate.state with
  | .idle => s.idleGateA arrival
  | .deferred =>
    if s.scr.gate.stored = some arrival then s
    else s.modGateA fun g => { g with stored := some arrival }
  | .pending =>
    if s.scr.gate.stored = some arrival then s.sendRouteA
    else (s.implicitPassA).idleGateA arrival

/-- R70, R71: a PASSED at gate A; the served entry is the one it concerns, whatever reference it echoes. -/
def State.passedA (route : Byte) (s : State) : State :=
  match s.scr.gate.state with
  | .pending =>
    match RouteA.ofCode route.toNat, s.scr.gate.item, s.scr.gate.ordered with
    | some r, some (.entry i), some ordered =>
      if r = ordered then s.passOrderedA i r else s.deviateA i r
    | _, _, _ => s.stray
  | _ => s.stray

end Sys2Proof.Machine
end

