-- ==== Sys2Proof/Machine/TestBank.lean ====
section
/-! DEFINITION. The hydrostatic test bank (chapter 4): loading, TEST, samples, timers, the verdict,
retests, release, faults, moves asked for by other blocks, management head actions. -/

namespace Sys2Proof.Machine

/-! ## Small parts -/

/-- R31, R92: the valid station entry that holds role HEAD with head number `n`. -/
def State.headStation (n : Nat) (s : State) : Option Nat :=
  s.tables.station.findIdx? fun e => e.valid && e.role == .head && e.head == n

/-- The states in which the cylinder may stand at test pressure (R75). -/
def HeadState.pressurised : HeadState → Bool
  | .pressurizing | .holding => true
  | _ => false

/-- The states of a test under way (R92). -/
def HeadState.testing : HeadState → Bool
  | .pressurizing | .holding | .venting | .settling | .measuring => true
  | _ => false

/-- The states in which a head may stand under pressure until its vent has ended (R97, R104). -/
def HeadState.needsVent : HeadState → Bool
  | .pressurizing | .holding | .venting => true
  | _ => false

/-- R75: the states without a cylinder. -/
def HeadState.vacant : HeadState → Bool
  | .empty | .disabled | .faulted => true
  | _ => false

/-- R79: the overpressure limit. -/
def ClassLimits.pmax (l : ClassLimits) : Nat := l.pt + l.pt * l.margin / 1000

/-- R81: a PRESSURE sample's value, clamped to 0 to 1000 bar. -/
def pressureValue (bar : Half) : Nat := min bar.toNat 1000

/-- R81, R85, R91: an EXPANSION sample's value, clamped to at most 30000, a negative value taken as 0. -/
def expansionValue (value : Half) : Nat := min value.toInt.toNat 30000

/-- A verdict, with the current date as its test date. -/
def State.fixVerdict (i : Nat) (v : Verdict) (s : State) : State :=
  s.modHydro i fun h => { h with verdict := v, date := s.mga.date }

/-- The outcome of head `n` is fixed and no retest is pending. -/
def State.fixOutcome (n : Nat) : State → State :=
  State.modHead n fun h => { h with fixed := true, retest := .none }

/-- The step timer of head `n` stops. -/
def State.stopStep (n : Nat) : State → State := State.modHead n fun h => { h with timer := none }

/-- A head state is entered with its step timer. -/
def State.enterStep (n : Nat) (st : HeadState) (kind : StepKind) (secs : Nat) : State → State :=
  State.modHead n fun h => { h with state := st, timer := some ⟨kind, seconds secs⟩ }

/-- R88: VENT is sent for head `n`'s cylinder. -/
def State.sendVent (n i : Nat) (s : State) : State := s.sendHead n (.vent (s.refOf i))

/-- R88: VENT is sent, the head goes to VENTING and the vent timer starts. -/
def State.startVent (n i : Nat) (s : State) : State :=
  (s.sendVent n i).enterStep n .venting .vent s.config.ventTimeout

/-- R95: the head enters DONE, and its RELEASE is asked for. -/
def State.enterDone (n i : Nat) (s : State) : State :=
  let s := s.modHead n fun h => { h with state := .done, timer := none }
  if (s.head n).release = .none then
    if s.room .xq then (s.reserve i .xq).sendRelease n i
    else (s.lodge .xq (.head n i)).modHead n fun h => { h with release := .claimed }
  else s

/-! ## TEST (R79, R80) -/

/-- R79 steps 1 to 3: the readings of the cylinder at a TEST issue. -/
def Hydro.restarted (auto : Bool) (h : Hydro) : Hydro :=
  { h with retests := if auto then h.retests + 1 else h.retests, et := 0, ep := 0, ratio := 0 }

/-- R79: TEST is issued for head `n` and its cylinder. -/
def State.issueTest (n i : Nat) (s : State) : State :=
  let s := s.modHydro i (Hydro.restarted ((s.head n).retest == .automatic))
  let seen := (s.headStation n).any s.degraded
  let s := s.modHead n fun h =>
    { h with window := [], retest := .none, degradedSeen := seen, timer := none }
  let l := s.limits i
  let s := s.sendHead n (.test (s.refOf i) l.pt l.hold l.pmax)
  if s.isRole .active then s.startRamp n else s.modHead n fun h => { h with state := .loaded }

/-! ## Loading (R77, R78) -/

/-- R77: the test of a freshly loaded cylinder is decided. -/
def State.decideTest (n i : Nat) (s : State) : State :=
  let d := (s.record i).disposition
  if d = .hold ∨ d = .condemned then
    (((s.fixVerdict i .notTested).fixOutcome n).enterDone n i)
  else s.issueTest n i

/-- R77: a LOADED report. -/
def State.takeLoaded (head : Byte) (s : State) : State :=
  let n := head.toNat
  match (s.head n).state, (s.head n).cylinder with
  | .assigned, some i => if n < 4 then ((s.idleLoader).decideTest n i).assignLoader else s.stray
  | _, _ => s.stray

/-- R78: the load timer expires. -/
def State.loadExpired (s : State) : State :=
  match s.tbc.loader.serving, s.tbc.loader.timer with
  | some n, some _ =>
    match (s.head n).cylinder with
    | some i =>
      let s := s.modHead n fun h => { h with state := .faulted, cylinder := none }
      (((s.idleLoader).closeLost i).closeAndNotify .loaderTimeout n).assignLoader
    | none => s
  | _, _ => s

/-! ## INVALID outcomes (R94) -/

/-- R94: whether an INVALID is retried. -/
def State.retries (i : Nat) (s : State) : Bool :=
  ((s.record i).hydro.getD Hydro.fresh).retests < (s.limits i).maxRetests

/-- R94, R102: the parts of a final INVALID that the head's state does not bear on. -/
def State.finalInvalid (n i : Nat) (s : State) : State :=
  ((s.fixVerdict i .invalid).addFinding i .hydroInvalid).fixOutcome n

/-- R94: an INVALID outcome of a pressurised head. -/
def State.invalidPressurised (n i : Nat) (s : State) : State :=
  if s.retries i then (s.modHead n fun h => { h with retest := .automatic }).startVent n i
  else ((s.stopStep n).finalInvalid n i).startVent n i

/-- R94: an INVALID outcome of a head in MEASURING. -/
def State.invalidMeasuring (n i : Nat) (s : State) : State :=
  if s.retries i then (s.modHead n fun h => { h with retest := .automatic }).issueTest n i
  else ((s.stopStep n).finalInvalid n i).enterDone n i

/-! ## Samples (R81 to R91) -/

/-- R87: an overpressure. -/
def State.overpressure (n i : Nat) (s : State) : State :=
  ((((s.stopStep n).fixVerdict i .fail).addFinding i .hydroOverpressure).fixOutcome n).startVent n i

/-- R81: the peak pressure. -/
def State.raisePeak (i p : Nat) : State → State :=
  State.modHydro i fun h => { h with peak := max h.peak p }

/-- R82: a PRESSURE sample in PRESSURIZING. -/
def State.pressurizingSample (n i p : Nat) (s : State) : State :=
  let l := s.limits i
  if l.pmax < p then s.overpressure n i
  else if l.pt ≤ p then
    (s.modHead n fun h => { h with window := [] }).enterStep n .holding .hold l.hold
  else s

/-- R84: a PRESSURE sample in HOLDING. -/
def State.holdingSample (n i p : Nat) (s : State) : State :=
  let l := s.limits i
  if l.pmax < p then s.overpressure n i
  else if p < l.pt - l.tolerance then s.invalidPressurised n i
  else s

/-- R88: the vent has ended. -/
def State.ventEnded (n i : Nat) (s : State) : State :=
  let s := s.stopStep n
  if (s.head n).fixed then s.enterDone n i
  else if (s.head n).retest != .none then s.issueTest n i
  else s.enterStep n .settling .settle (s.limits i).settle

/-- R81: a PRESSURE sample from head `n`'s station. A sample in VENTING that is above Pmax and at or below the
vent threshold raises the peak and ends the vent (DESIGN CHOICE: R87 and R88 differ there, log 31). -/
def State.takePressure (n : Nat) (bar : Half) (s : State) : State :=
  match (s.head n).cylinder with
  | none => s.stray
  | some i =>
    let p := pressureValue bar
    match (s.head n).state with
    | .empty | .disabled | .assigned | .done | .faulted => s.stray
    | .loaded => ((s.leaveLoaded n).raisePeak i p).pressurizingSample n i p
    | .pressurizing => (s.raisePeak i p).pressurizingSample n i p
    | .holding => (s.raisePeak i p).holdingSample n i p
    | .venting =>
      let s := s.raisePeak i p
      if p ≤ (s.limits i).ventThreshold then s.ventEnded n i else s
    | .settling | .measuring => s.raisePeak i p

/-- R85: a value enters the expansion window; when a fifth would stand, the oldest leaves. -/
def pushSample (v : Nat) (w : List Nat) : List Nat :=
  let w := w ++ [v]
  w.drop (w.length - 4)

/-- R93: the permanent ratio, in tenths of a percent. -/
def permanentRatio (ep et : Nat) : Nat := min (1000 * ep / et) 1000

/-- R93: the result is PASS. -/
def passes (l : ClassLimits) (ratio et : Nat) : Bool :=
  ratio ≤ l.permLimit && (l.elasticLimit == 0 || et ≤ l.elasticLimit)

/-- R17: a PENDING record with no HOLD or CONDEMN finding is REQUALIFIED. -/
def TrackRecord.requalified (action : UnknownOwner) (r : TrackRecord) : TrackRecord :=
  if r.disposition = .pending ∧ hasSeverity action .hold r.findings = false ∧
      hasSeverity action .condemn r.findings = false then
    { r with disposition := .requalified }
  else r

/-- R93: the verdict at the permanent expansion reading `ep`. -/
def State.reachVerdict (n i ep : Nat) (s : State) : State :=
  let l := s.limits i
  let et := ((s.record i).hydro.getD Hydro.fresh).et
  let ratio := permanentRatio ep et
  let s := s.modHydro i fun h => { h with ep := ep, ratio := ratio }
  if passes l ratio et then
    if (s.head n).degradedSeen then s.invalidMeasuring n i
    else
      (((s.fixVerdict i .pass).fixOutcome n).enterDone n i).modRecord i
        (TrackRecord.requalified s.config.unknownOwner)
  else (((s.fixVerdict i .fail).addFinding i .hydroFail).fixOutcome n).enterDone n i

/-- R81: an EXPANSION sample from head `n`'s station. -/
def State.takeExpansion (n : Nat) (value : Half) (s : State) : State :=
  match (s.head n).cylinder with
  | none => s.stray
  | some i =>
    let v := expansionValue value
    match (s.head n).state with
    | .empty | .disabled | .assigned | .done | .faulted | .pressurizing | .venting => s.stray
    | .loaded => (s.leaveLoaded n).stray
    | .holding => s.modHead n fun h => { h with window := pushSample v h.window }
    | .settling => s
    | .measuring => (s.stopStep n).reachVerdict n i v

/-! ## Step timers (R83, R86, R89 to R91) -/

/-- The cylinder of a head whose step timer of a kind runs. -/
def State.timedCylinder (n : Nat) (k : StepKind) (s : State) : Option Nat :=
  match (s.head n).timer with
  | some t => if t.kind = k then (s.head n).cylinder else none
  | none => none

/-- R83: the ramp timer expires. -/
def State.rampExpired (n : Nat) (s : State) : State :=
  match s.timedCylinder n .ramp with
  | some i => s.invalidPressurised n i
  | none => s

/-- R86: the hold timer expires. -/
def State.holdExpired (n : Nat) (s : State) : State :=
  match s.timedCylinder n .hold with
  | none => s
  | some i =>
    let w := (s.head n).window
    if w.length < 4 then s.invalidPressurised n i
    else
      let et := w.sum / 4
      let s := s.modHydro i fun h => { h with et := et }
      if et = 0 then s.invalidPressurised n i else s.startVent n i

/-- R89, R97: the verdict after a head fault: INVALID unless it is one that is kept; the date is recorded if
the verdict was NONE. -/
def Hydro.faulted (keep : Verdict → Bool) (date : Option Date) (h : Hydro) : Hydro :=
  { h with verdict := if keep h.verdict then h.verdict else .invalid,
           date := if h.verdict = .none then date else h.date }

/-- R89, R97: outcome fixed, no retest pending, the faulted mark set, the step timer stopped. -/
def State.markFaulted (n : Nat) : State → State :=
  State.modHead n fun h => { h with fixed := true, retest := .none, faulted := true, timer := none }

/-- R89: the vent timer expires. -/
def State.ventExpired (n : Nat) (s : State) : State :=
  match s.timedCylinder n .vent with
  | none => s
  | some i =>
    let s := s.addFinding i .headFault
    let s := s.modHydro i (Hydro.faulted (fun v => v == .fail) s.mga.date)
    (((s.markFaulted n).notify .headFault n).enterDone n i)

/-- R90: the settle timer expires. -/
def State.settleExpired (n : Nat) (s : State) : State :=
  match s.timedCylinder n .settle with
  | none => s
  | some _ => s.enterStep n .measuring .measure s.config.measureTimeout

/-- R91: the measure timer expires. -/
def State.measureExpired (n : Nat) (s : State) : State :=
  match s.timedCylinder n .measure with
  | none => s
  | some i => s.invalidMeasuring n i

/-! ## Unloading, faults (R96, R97) -/

/-- R96: the cylinder is unloaded before the part released it. DESIGN CHOICE (log 36): from ASSIGNED, where the
loader becomes IDLE (R76) and the head EMPTY in one event, the arbiter checks only once the head has lost its
cylinder, so it may choose that head. -/
def State.unloadEarly (n i : Nat) (s : State) : State :=
  let h := s.head n
  let s := s.stopStep n
  let s := if h.state = .assigned then s.idleLoader else s
  let s := if h.fixed then s else (s.fixVerdict i .invalid).addFinding i .hydroInvalid
  let s := (s.arriveXq i).vacateHead n
  if h.state = .assigned then s.assignLoader else s

/-- R96: an UNLOADED report from head `n`'s station. -/
def State.takeUnloaded (n : Nat) (s : State) : State :=
  match (s.head n).cylinder with
  | none => s.stray
  | some i =>
    match (s.head n).state, (s.head n).release with
    | .done, .sent => ((s.dropReservation i).joinXq i).vacateHead n
    | .done, .claimed => ((s.withdrawEntry i).arriveXq i).vacateHead n
    | _, _ => s.unloadEarly n i

/-- R97: a HEAD_FAULT for a head that holds cylinder `i`. -/
def State.faultLoaded (n i : Nat) (s : State) : State :=
  let st := (s.head n).state
  let s := s.addFinding i .headFault
  let s := s.modHydro i (Hydro.faulted (fun v => v == .fail || v == .notTested) s.mga.date)
  let s := s.stopStep n
  let s := if st = .assigned then (s.idleLoader).assignLoader else s
  let s := if st.needsVent then s.sendVent n i else s
  (s.markFaulted n).enterDone n i

/-- R97: a HEAD_FAULT report from head `n`'s station. -/
def State.takeHeadFault (n : Nat) (s : State) : State :=
  let s := s.notify .headFault n
  match (s.head n).cylinder with
  | none => s.modHead n fun h => { h with state := .faulted }
  | some i => s.faultLoaded n i

/-- R92: SMN tells that the stream of head `n`'s station entry went to DEGRADED. -/
def State.headDegraded (n : Nat) (s : State) : State :=
  if (s.head n).state.testing then s.modHead n fun h => { h with degradedSeen := true } else s

/-! ## Moves asked for by other blocks (R98, R99) -/

/-- R98: FCU has found at the stamping cell the cylinder `i` of head `n` in DONE; it goes to the stamp slot. -/
def State.implicitUnload (n i : Nat) (s : State) : State :=
  let s := match (s.head n).release with
    | .sent => s.releaseReservation i
    | .claimed => s.withdrawEntry i
    | .none => s
  let s := (s.modSlot fun c => { c with content := .entry i }).setPlace i .stamp
  s.vacateHead n

/-- R99: what TBC tells ROL. -/
inductive Moved where
  | moved
  | already
  | refused
  deriving DecidableEq, Repr

/-- R99: the entry moves from ASSIGNED on head `h` to head `m`. -/
def State.reassign (h m i : Nat) (s : State) : State :=
  let s := s.modHead m fun r => { r with state := .assigned, cylinder := some i }
  let s := s.modTbc fun t => { t with loader := { t.loader with serving := some m } }
  let s := (s.modHead h fun _ => HeadRecord.reset).setPlace i (.head m)
  s.assignLoader

/-- R99: entry `i` moves to the observed head `m`. -/
def State.moveHead (i m : Nat) (s : State) : Moved × State :=
  if (s.head m).cylinder = some i then (.already, s)
  else if (s.head m).cylinder.isSome then (.refused, s)
  else
    match s.tbc.heads.findIdx? fun r => r.cylinder == some i && r.state == .assigned with
    | some h => (.moved, s.reassign h m i)
    | none =>
      if s.trk.fq.head? = some i ∧ s.tbc.loader.serving = none then (.moved, s.assignTo m i false)
      else (.refused, s)

/-! ## Management head actions (R100 to R103) -/

/-- R101: RETEST. -/
def State.retestHead (n : Nat) (s : State) : ReplyCode × State :=
  match (s.head n).cylinder with
  | none => (.wrongState, s)
  | some i =>
    match (s.head n).state, (s.head n).fixed with
    | .pressurizing, _ | .holding, _ => (.done, (s.stopStep n).issueTest n i)
    | .venting, false =>
      (.done, s.modHead n fun h =>
        { h with retest := if h.retest = .automatic then .automatic else .requested })
    | .settling, false | .measuring, false =>
      (.done, ((s.stopStep n).modHead n fun h => { h with retest := .requested }).issueTest n i)
    | _, _ => (.wrongState, s)

/-- R102: ABORT. -/
def State.abortHead (n : Nat) (s : State) : ReplyCode × State :=
  match (s.head n).cylinder with
  | none => (.wrongState, s)
  | some i =>
    match (s.head n).state, (s.head n).fixed with
    | .pressurizing, _ | .holding, _ => (.done, ((s.stopStep n).finalInvalid n i).startVent n i)
    | .venting, false => (.done, s.finalInvalid n i)
    | .venting, true => (.done, s)
    | .loaded, _ | .settling, _ | .measuring, _ =>
      (.done, ((s.stopStep n).finalInvalid n i).enterDone n i)
    | _, _ => (.wrongState, s)

/-- R103: DISABLE. -/
def State.disableHead (n : Nat) (s : State) : ReplyCode × State :=
  if (s.head n).state.vacant then (.done, s.modHead n fun h => { h with state := .disabled })
  else (.busy, s)

/-- R103: ENABLE. -/
def State.enableHead (n : Nat) (s : State) : ReplyCode × State :=
  match (s.head n).state with
  | .disabled | .faulted => (.done, (s.modHead n fun _ => HeadRecord.reset).assignLoader)
  | .empty => (.done, s)
  | _ => (.busy, s)

/-! ## Restart and role changes (R104) -/

/-- R104: a head record after a line restart or a change to TRANSPARENT. -/
def HeadRecord.restarted (h : HeadRecord) : HeadRecord :=
  if h.state = .disabled then { HeadRecord.reset with state := .disabled } else HeadRecord.reset

/-- R104 steps 2 and 3: the heads and the loader. -/
def State.restartBank : State → State :=
  State.modTbc fun t => { heads := t.heads.map HeadRecord.restarted, loader := Loader.reset }

/-- R104 step 1: VENT for head `n` if it may hold pressure. -/
def State.restartVent (n : Nat) (s : State) : State :=
  match (s.head n).cylinder with
  | some i => if (s.head n).state.needsVent then s.sendVent n i else s
  | none => s

/-- R104 step 1: the VENTs of a restart, in head number order. -/
def State.restartVents (s : State) : State :=
  (((s.restartVent 0).restartVent 1).restartVent 2).restartVent 3

end Sys2Proof.Machine
end

