-- ==== Sys2Proof/Machine/Finish.lean ====
section
/-! DEFINITION. The finish cell (chapter 5): the identity search, stamping, stamp outcomes, gate B. -/

namespace Sys2Proof.Machine

/-! ## Matching (R106, R107) -/

/-- R106: an entry's identity matches a read. -/
def Identity.matches (a b : Identity) : Bool := a.serial == b.serial && a.owner == b.owner

/-- R106: entry `i` matches a read. -/
def State.entryMatches (id : Identity) (s : State) (i : Nat) : Bool :=
  (s.record i).identity.any fun e => e.matches id

/-- R106, R107: the slot content matches a read. -/
def State.slotMatches (id : Identity) (s : State) : Bool :=
  match s.fcu.slot.content with
  | .empty => false
  | .entry i => s.entryMatches id i
  | .marker (some m) => m.1 == id.serial && m.2 == id.owner
  | .marker none => false

/-- R107: a repeat is answered from the held image once the stage is SENT. -/
def State.answerRepeat (s : State) : State :=
  match s.fcu.slot.stage, s.fcu.slot.image with
  | .sent, some img => s.sendImage img
  | _, _ => s

/-! ## Leaving the slot (R105, R108, R119) -/

/-- The content of the slot as a GQ item. -/
def SlotContent.item : SlotContent → Option Item
  | .empty => none
  | .entry i => some (.entry i)
  | .marker _ => some .marker

/-- R105: the slot is cleared. -/
def State.clearSlot : State → State := State.modSlot fun _ => StampSlot.reset

/-- R12, R119: the content leaves the slot for GQ, its reservation converting. -/
def State.slotToGq (s : State) : State :=
  match s.fcu.slot.content with
  | .empty => s
  | .entry i => ((s.clearSlot).dropReservation i).joinGq (.entry i)
  | .marker _ => (s.clearSlot).joinGq .marker

/-- R108 step 3: the content, whose claim is withdrawn, is admitted to GQ if there is room, else closed or
discarded. -/
def State.slotToGqUnreserved (s : State) : State :=
  let s := s.withdrawSlot
  match s.fcu.slot.content with
  | .empty => s
  | .entry i =>
    let s := s.clearSlot
    if s.room .gq then s.joinGq (.entry i) else s.closeForRoom i
  | .marker _ =>
    let s := s.clearSlot
    if s.room .gq then s.joinGq .marker else (s.overrun).notify .overrun s.trk.gq.length

/-- R108: the content is overtaken by a new cylinder. -/
def State.overtake (s : State) : State :=
  let s := match s.fcu.slot.content with
    | .entry i => (s.setStampStatus i .unconfirmed).addFinding i .stampUnconfirmed
    | _ => s
  match s.fcu.slot.stage with
  | .sent => s.slotToGq
  | _ => s.slotToGqUnreserved

/-! ## The identity search (R109 to R112) -/

/-- Entry `i` enters the stamp slot. -/
def State.intoSlot (i : Nat) (s : State) : State :=
  (s.modSlot fun c => { c with content := .entry i }).setPlace i .stamp

/-- R109: entry `i` leaves XQ for the stamp slot; the freed place may grant a claim. -/
def State.fromXq (i : Nat) (s : State) : State :=
  ((s.modTrk fun t => { t with xq := t.xq.erase i }).intoSlot i).grant .xq

/-- R112: a stranger. -/
def State.stranger (read : Option Identity) (s : State) : State :=
  let s := s.modSlot fun c => { c with content := .marker (read.map fun id => (id.serial, id.owner)) }
  (s.count .strangers 1).notify .stranger (((s.roleNode .stamp).map BitVec.toNat).getD 0)

/-- R109 step 3: the lowest-numbered head in DONE whose cylinder matches. -/
def State.doneHead (id : Identity) (s : State) : Option (Nat × Nat) :=
  match s.tbc.heads.findIdx? fun h => h.state == .done && h.cylinder.any (s.entryMatches id) with
  | none => none
  | some n => (s.head n).cylinder.map fun i => (n, i)

/-- R111: the XQ head entry that physical order gives to a read that matched nothing. -/
def State.xqByOrder (read : Option Identity) (s : State) : Option Nat :=
  match read, s.trk.xq with
  | _, [] => none
  | none, i :: _ => some i
  | some _, i :: _ => if (s.record i).identity.isNone then some i else none

/-- R110: an implicit unload. -/
def State.fromHead (n i : Nat) (s : State) : State := (s.implicitUnload n i).addFinding i .implicitPass

/-- R111, R112: a read that matched nothing. -/
def State.unmatched (read : Option Identity) (s : State) : State :=
  match s.xqByOrder read with
  | some i => (s.addFinding i .identityDoubt).fromXq i
  | none => s.stranger read

/-- R109 to R112: what enters the empty slot. -/
def State.search (read : Option Identity) (s : State) : State :=
  match read with
  | none => s.unmatched none
  | some id =>
    match s.trk.xq.find? (s.entryMatches id) with
    | some i =>
      if s.trk.xq.head? = some i then s.fromXq i else (s.addFinding i .identityDoubt).fromXq i
    | none =>
      match s.doneHead id with
      | some (n, i) => s.fromHead n i
      | none => s.unmatched (some id)

/-- R114: a GQ place is asked for the new content. -/
def State.requestStamp (s : State) : State :=
  if s.room .gq then s.takeStampPlace
  else (s.lodge .gq .stampSlot).modSlot fun c => { c with stage := .claimed }

/-- R106: the doubt of a DEGRADED stream, for an entry just placed. -/
def State.doubtSlot (doubt : Bool) (s : State) : State :=
  match s.fcu.slot.content with
  | .entry i => s.addFindingIf doubt i .identityDoubt
  | _ => s

/-- R106, R107: a TAG from station entry `e` of role STAMP. -/
def State.takeStampTag (e : Nat) (tag : TagRead) (s : State) : State :=
  let read := readIdentity tag
  if read.any s.slotMatches then s.answerRepeat
  else
    let doubt := s.degraded e
    let s := if s.fcu.slot.content = .empty then s else s.overtake
    ((s.search read).doubtSlot doubt).requestStamp

/-! ## Stamp outcomes (R119, R120) -/

/-- R119: the stamp status after STAMP_DONE. -/
def TrackRecord.stampDone (r : TrackRecord) : TrackRecord :=
  if r.stampStatus = .sent then { r with stampStatus := .done } else r

/-- R119, R120: a STAMP_DONE. -/
def State.takeStampDone (s : State) : State :=
  match s.fcu.slot.content, s.fcu.slot.stage with
  | .entry i, .sent => (s.modRecord i TrackRecord.stampDone).slotToGq
  | .marker _, .sent => s.slotToGq
  | _, _ => s.stray

/-- R119, R120: a STAMP_FAULT. -/
def State.takeStampFault (s : State) : State :=
  match s.fcu.slot.content, s.fcu.slot.stage with
  | .entry i, .sent => ((s.setStampStatus i .fault).addFinding i .stampFault).slotToGq
  | .marker _, .sent => s.slotToGq
  | _, _ => s.stray

/-! ## Gate B (R65, R68 to R70, R121 to R124) -/

/-- R121: the route of a disposition. -/
def Disposition.routeB : Disposition → RouteB
  | .requalified => .fill
  | .condemned => .scrap
  | .pending | .returned | .hold | .lost => .bench

/-- R121: the route of an item. -/
def State.routeBOf (it : Item) (s : State) : RouteB :=
  match it with
  | .entry i => (s.record i).disposition.routeB
  | .marker => .bench

/-- The track reference of an item; none for a marker. -/
def State.itemRef (it : Item) (s : State) : Option TrackRef :=
  match it with
  | .entry i => some (s.refOf i)
  | .marker => none

/-- R68, R121: gate B's ROUTE is built and sent. -/
def State.sendRouteB (s : State) : State :=
  match s.fcu.gate.item, s.fcu.gate.ordered, s.fcu.gate.stored with
  | some it, some r, some a => s.send (s.roleNode .gateB) (.routeB r (s.itemRef it) a)
  | _, _, _ => s

/-- R121: gate B serves an item. -/
def State.serveGateB (it : Item) (arrival : Byte) (s : State) : State :=
  (s.modGateB fun g => { g with state := .pending, item := some it, stored := some arrival,
                                ordered := some (s.routeBOf it) }).sendRouteB

/-- R65: an AT_GATE while gate B is IDLE. -/
def State.idleGateB (arrival : Byte) (s : State) : State :=
  if s.fcu.gate.last = some arrival then s.stray
  else match s.trk.gq with
    | [] => s.stray
    | it :: _ => s.serveGateB it arrival

/-- R123: the served item, the GQ head, leaves the queue; an entry joins the closing list. -/
def State.leaveGq (it : Item) (s : State) : State :=
  let s := (s.modTrk fun t => { t with gq := t.gq.tail }).modGateB GateRecord.passed
  match it with
  | .entry i => (s.joinClosing i).serveClosing
  | .marker => s

/-- The gate B route of entry `i` records the route taken. -/
def State.recordRouteB (i : Nat) (route : RouteB) : State → State :=
  State.modRecord i fun r => { r with routeB := some route }

/-- R123: the served item passes on the ordered route. -/
def State.passOrderedB (it : Item) (route : RouteB) (s : State) : State :=
  let s := match it with
    | .entry i => s.recordRouteB i route
    | .marker => s
  (s.leaveGq it).grant .gq

/-- R124: the served item passes on another route. -/
def State.deviateB (it : Item) (route : RouteB) (s : State) : State :=
  let s := match it with
    | .entry i => (s.addFinding i .routeDeviation).recordRouteB i route
    | .marker => s.notify .stranger (((s.roleNode .gateB).map BitVec.toNat).getD 0)
  (s.leaveGq it).grant .gq

/-- R69, R123: the implicit passage at gate B. -/
def State.implicitPassB (s : State) : State :=
  match s.fcu.gate.item, s.fcu.gate.ordered with
  | some it, some route =>
    let s := match it with
      | .entry i => s.addFinding i .implicitPass
      | .marker => s
    s.passOrderedB it route
  | _, _ => s.modGateB GateRecord.passed

/-- R65, R68, R69: an AT_GATE at gate B. -/
def State.atGateB (arrival : Byte) (s : State) : State :=
  match s.fcu.gate.state with
  | .pending =>
    if s.fcu.gate.stored = some arrival then s.sendRouteB
    else (s.implicitPassB).idleGateB arrival
  | _ => s.idleGateB arrival

/-- R123, R124: a PASSED at gate B. -/
def State.passedB (route : Byte) (s : State) : State :=
  match s.fcu.gate.state with
  | .pending =>
    match RouteB.ofCode route.toNat, s.fcu.gate.item, s.fcu.gate.ordered with
    | some r, some it, some ordered =>
      if r = ordered then s.passOrderedB it r else s.deviateB it r
    | _, _, _ => s.stray
  | _ => s.stray

/-- R122: a finding has been added to entry `i`; if gate B serves it, its route is recomputed. -/
def State.rerouteGateB (i : Nat) (s : State) : State :=
  if s.fcu.gate.state = .pending ∧ s.fcu.gate.item = some (.entry i) then
    let route := s.routeBOf (.entry i)
    if s.fcu.gate.ordered = some route then s
    else (s.modGateB fun g => { g with ordered := some route }).sendRouteB
  else s

end Sys2Proof.Machine
end

