-- ==== Sys2Proof/Machine/Streams.lean ====
section
/-! DEFINITION. Report streams: the sequence check, stream grades, loss attribution, the jam qualifiers,
and the dispatch of a report by its sender's role (R31, R32, R146 to R155). -/

namespace Sys2Proof.Machine

/-! ## The sequence check (R147, R148) -/

/-- R147: `d`, the distance of a sequence number from the expected one; 0 for a stream's first frame. -/
def StreamRecord.distance (seq : Byte) (r : StreamRecord) : Nat :=
  match r.expected with
  | none => 0
  | some x => (seq - x).toNat

/-- R148: the state after an accepted frame, from the state before, the run count and history after it. -/
def gradeStream (gap : Bool) (run : Nat) (history : List Mark) : StreamState → StreamState
  | .new => if run = 8 then .synced else .new
  | .synced => if gap ∧ 4 ≤ gapMarks history then .degraded else .synced
  | .degraded => if run = 8 then .synced else .degraded

/-- R147, R148: a record after an accepted frame. -/
def StreamRecord.accept (seq : Byte) (gap : Bool) (r : StreamRecord) : StreamRecord :=
  let run := if gap then 0 else min (r.run + 1) 8
  let history := pushMark (if gap then .gap else .clean) r.history
  { state := gradeStream gap run history r.state, expected := some (seq + 1), run := run,
    history := history }

/-- The stream record of station entry `e` changed. -/
def State.modStream (e : Nat) (f : StreamRecord → StreamRecord) : State → State :=
  State.modSmn fun m => { m with streams := m.streams.set e (f (m.streams.getD e StreamRecord.reset)) }

/-- The node of station entry `e`, as a notice's argument. -/
def State.nodeArg (e : Nat) (s : State) : Nat := (s.station e).node.toNat

/-- R148: what a change of state brings: notices, and TBC told of a HEAD stream's degradation. -/
def State.streamChanged (e : Nat) (was : StreamState) (s : State) : State :=
  match was, (s.stream e).state with
  | .synced, .degraded =>
    let s := s.notify .stationDegraded (s.nodeArg e)
    if (s.station e).role = .head then s.headDegraded (s.station e).head else s
  | .degraded, .synced => s.notify .stationResynced (s.nodeArg e)
  | _, _ => s

/-- R150: a lost measurement is marked on entry `i`. -/
def State.markLost (role : StationRole) (i : Nat) (s : State) : State :=
  let s := match role with
    | .weigh => s.modRecord i fun r => { r with weight := .lost }
    | .inspect => s.modRecord i fun r => { r with grade := .lost }
    | _ => s
  s.addFinding i .streamLoss

/-- R150: the IQ entries that lack the measurement of a station, oldest first. -/
def State.lacking (role : StationRole) (s : State) : List Nat :=
  match role with
  | .weigh => s.trk.iq.filter s.lacksWeight
  | .inspect => s.trk.iq.filter s.lacksGrade
  | _ => []

/-- R150: a gap of `d` frames attributed. -/
def State.attribute (role : StationRole) (d : Nat) (s : State) : State :=
  ((s.lacking role).take d).foldl (fun s i => s.markLost role i) s

/-- R147, R148, R150: the sequence check of a frame from station entry `e`; none if it is stale, else the
state before the dispatch. -/
def State.checkSequence (e : Nat) (seq : Byte) (s : State) : Option State :=
  let r := s.stream e
  let d := r.distance seq
  if 127 < d then none
  else
    let s := if 0 < d then s.count .streamGaps d else s
    let s := s.modStream e (StreamRecord.accept seq (0 < d))
    some ((s.streamChanged e r.state).attribute (s.station e).role d)

/-! ## The jam qualifiers (R151 to R155) -/

/-- The jam qualifier of station entry `e`. -/
def State.jam (e : Nat) (s : State) : JamQualifier := s.smn.jams.getD e JamQualifier.reset

/-- The jam qualifier of station entry `e` changed. -/
def State.modJam (e : Nat) (f : JamQualifier → JamQualifier) : State → State :=
  State.modSmn fun m => { m with jams := m.jams.set e (f (m.jams.getD e JamQualifier.reset)) }

/-- The gap timer of a qualifier starts, or is re-armed. -/
def State.armGap (e : Nat) (s : State) : State :=
  s.modJam e fun q => { q with gap := some s.config.jamGap }

/-- R152: QUALIFYING is entered. -/
def State.startQualify (e : Nat) (s : State) : State :=
  s.modJam e fun q => { q with state := .qualifying, qualify := some s.config.jamQualify,
                               gap := some s.config.jamGap }

/-- R154: CLEARING is entered. -/
def State.startClearing (e : Nat) (s : State) : State :=
  s.modJam e fun q => { q with state := .clearing, clear := some s.config.clearQualify,
                               gap := some s.config.jamGap }

/-- R154: back to JAMMED, the clear-qualify and gap timers stopped. -/
def State.fallBack (e : Nat) : State → State :=
  State.modJam e fun q => { q with state := .jammed, clear := none, gap := none }

/-- The qualifier returns to IDLE, its timers stopped. -/
def State.idleJam (e : Nat) : State → State := State.modJam e fun _ => JamQualifier.reset

/-- R151 to R154: a JAM report. -/
def State.takeJam (e : Nat) (s : State) : State :=
  match (s.station e).jam, (s.jam e).state with
  | .off, _ => s
  | _, .idle => s.startQualify e
  | _, .qualifying => s.armGap e
  | .notify, .jammed => s.armGap e
  | .auto, .clearing => s.fallBack e
  | _, _ => s

/-- R151 to R154: a CLEAR report. -/
def State.takeClear (e : Nat) (s : State) : State :=
  match (s.station e).jam, (s.jam e).state with
  | .auto, .jammed => s.startClearing e
  | .auto, .clearing => s.armGap e
  | _, _ => s

/-- R152: the qualify timer expires. -/
def State.qualifyExpired (e : Nat) (s : State) : State :=
  match (s.jam e).qualify, (s.station e).jam, (s.jam e).state with
  | some _, .notify, .qualifying =>
    (s.modJam e fun q => { q with state := .jammed, qualify := none }).notify .jamQualified (s.nodeArg e)
  | some _, .auto, .qualifying =>
    ((s.modJam e fun q => { q with state := .jammed, qualify := none, gap := none }).notify .jamQualified
      (s.nodeArg e)).addCause (.jam e)
  | _, _, _ => s

/-- R152 to R154: the gap timer expires. -/
def State.gapExpired (e : Nat) (s : State) : State :=
  match (s.jam e).gap, (s.station e).jam, (s.jam e).state with
  | none, _, _ => s
  | _, .off, _ => s
  | _, _, .qualifying => s.idleJam e
  | _, .notify, .jammed => (s.idleJam e).notify .jamCleared (s.nodeArg e)
  | _, .auto, .clearing => s.fallBack e
  | _, _, _ => s

/-- R154: the clear-qualify timer expires. -/
def State.clearExpired (e : Nat) (s : State) : State :=
  match (s.jam e).clear, (s.station e).jam, (s.jam e).state with
  | some _, .auto, .clearing =>
    ((s.idleJam e).removeCause (.jam e)).notify .jamCleared (s.nodeArg e)
  | _, _, _ => s

/-! ## Dispatch (R31, R32) -/

/-- R32: a report that passed its sequence check, from station entry `e`. -/
def State.dispatch (e : Nat) (r : Report) (s : State) : State :=
  let st := s.station e
  match st.role, r with
  | _, .jam => s.takeJam e
  | _, .clear => s.takeClear e
  | .induction, .tag t => s.inductTag e t
  | .weigh, .weight g stable => s.takeWeight e g stable
  | .inspect, .grade g => s.takeGrade e g
  | .gateA, .atGate a => s.atGateA a
  | .gateA, .passed route _ => s.passedA route
  | .loader, .loaded h _ => s.takeLoaded h
  | .head, .pressure b => s.takePressure st.head b
  | .head, .expansion v => s.takeExpansion st.head v
  | .head, .unloaded => s.takeUnloaded st.head
  | .head, .headFault => s.takeHeadFault st.head
  | .stamp, .tag t => s.takeStampTag e t
  | .stamp, .stampDone _ => s.takeStampDone
  | .stamp, .stampFault _ => s.takeStampFault
  | .gateB, .atGate a => s.atGateB a
  | .gateB, .passed route _ => s.passedB route
  | _, _ => s.stray

/-- R31, R147, R199: a REPORT to be processed: its sender looked up, its sequence checked, then dispatched;
a payload that fits no layout is stray after the sequence check. -/
def State.acceptReport (src : Node) (seq : Byte) (r : Option Report) (s : State) : State :=
  match s.stationOf src with
  | none => s
  | some e =>
    match s.checkSequence e seq with
    | none => s.count .stale 1
    | some s' =>
      match r with
      | some r => s'.dispatch e r
      | none => s'.stray

/-! ## Resets (R34, R161, R162) -/

/-- R34: the stream record and the jam qualifier of entry `e`, and its JAM cause. -/
def State.resetStation (e : Nat) (s : State) : State :=
  ((s.modStream e fun _ => StreamRecord.reset).idleJam e).removeCause (.jam e)

end Sys2Proof.Machine
end

