-- ==== Sys2Proof/Machine/Role.lean ====
section
/-! DEFINITION. The role unit (chapter 8): beacons, the partner record, partner orders and expectations,
takeover, demotion, role changes. -/

namespace Sys2Proof.Machine

/-! ## Shared parts of role changes -/

/-- R142: proving is turned off. What the rule does not name stays as it stands (log 21). -/
def State.proveOff : State → State :=
  State.modProving fun p =>
    { p with on := false, interval := none, due := false, insertion := false, list := [], checker := .off }

/-- R24: the track unit with every entry in use freed and every collection and claim gone. -/
def TrackUnit.cleared (t : TrackUnit) : TrackUnit :=
  { table := t.table.map fun e => if e.place = .free then e else e.freed,
    iq := [], gateA := none, fq := [], xq := [], gq := [], closing := [], claims := [] }

/-- R24, R74, R125: tracking, the gate records and the stamp slot cleared. -/
def State.clearTracking (s : State) : State :=
  (((s.modTrk TrackUnit.cleared).modGateA fun _ => GateRecord.reset).modGateB fun _ => GateRecord.reset).clearSlot

/-- R161: every stream record NEW, every jam qualifier IDLE. -/
def State.resetStreams : State → State := State.modSmn fun _ => StreamMonitor.reset

/-- R132, R140: the order queue and the outstanding order list are emptied, without counting. -/
def State.withdrawOrders : State → State :=
  State.modRpt fun r => { r with orders := [], outstanding := [] }

/-- R167: the expectation list is emptied, with no divergence counted. -/
def State.dropExpectations : State → State := State.modRol fun r => { r with expectations := [] }

/-! ## The beacon and the partner record (R165, R166) -/

/-- R165: the beacon timer expires. -/
def State.beaconExpired (s : State) : State :=
  match s.rol.beaconTimer with
  | none => s
  | some _ =>
    (s.modRpt fun r => { r with beaconDue := true }).modRol fun r =>
      { r with beaconTimer := some s.config.beaconPeriod }

/-- R165: the beacon timer starts with its full period. -/
def State.startBeacon (s : State) : State :=
  s.modRol fun r => { r with beaconTimer := some s.config.beaconPeriod }

/-- R172: the partner-seen timer starts with its full time. -/
def State.startPartnerSeen (s : State) : State :=
  s.modRol fun r => { r with partnerSeen := some s.config.takeoverTime }

/-- R166: the occupancy a beacon reports; a byte above 80 gives a free value of the range (log 9). -/
def seenOccupancy (free : Nat) (b : Byte) : Nat :=
  if b.toNat ≤ 80 then b.toNat else min (Config.oddOccupancy free b) 80

/-- R166: the unfit flag a beacon reports; a byte other than 0 and 1 gives a free value (log 9). -/
def seenUnfit (free : Nat) (b : Byte) : Bool :=
  if b = 0 then false else if b = 1 then true else Config.oddUnfit free b

/-- R166: the partner record is written. -/
def State.recordPartner (role : Role) (occupancy unfit : Byte) (s : State) : State :=
  (s.modRol fun r =>
    { r with partner := { presence := .present, role := some role,
                          occupancy := some (seenOccupancy s.free occupancy),
                          unfit := some (seenUnfit s.free unfit) } }).useFree

/-! ## Takeover and demotion (R173, R175) -/

/-- R162: HALT or RESUME, then FEED_HOLD or FEED_GO, from the part's own halt set and feed state. -/
def State.restateLine (s : State) : State :=
  let s := s.send (some broadcast) (if s.lsc.halt.isEmpty then .resume else .halt)
  s.send (s.roleNode .induction) (match s.lsc.feed with
    | .hold => .feedHold
    | .go => .feedGo)

/-- R80, R173: every head in LOADED goes to PRESSURIZING. -/
def State.leaveAllLoaded (s : State) : State :=
  (((s.leaveLoaded 0).leaveLoaded 1).leaveLoaded 2).leaveLoaded 3

/-- R173 step 2: the expectations are given to the order queue, oldest first. -/
def State.expectationsToOrders (s : State) : State :=
  (s.rol.expectations.foldl (fun s e => s.enqueueOrder e.dst e.order) s).dropExpectations

/-- R173: SHADOW to ACTIVE. -/
def State.takeover (s : State) : State :=
  let n := s.rol.expectations.length
  let s := s.modRol fun r => { r with role := some .active, partnerSeen := none }
  ((((s.expectationsToOrders).leaveAllLoaded).restateLine).proveOff).notify .takeover n

/-- R175: ACTIVE to SHADOW; `arg` is the DEMOTED notice's argument. -/
def State.demote (arg : Node) (s : State) : State :=
  let s := (s.modRol fun r => { r with role := some .shadow }).startPartnerSeen
  ((s.withdrawOrders).serveClosing).notify .demoted arg.toNat

/-- R172: the partner-seen timer expires. -/
def State.partnerSeenExpired (s : State) : State :=
  match s.isRole .shadow, s.rol.partnerSeen with
  | true, some _ =>
    let s := s.modRol fun r =>
      { r with partnerSeen := none, partner := { r.partner with presence := .absent } }
    if s.config.autoTakeover && !s.rol.unfit then s.takeover else s
  | _, _ => s

/-- R166, R172, R174: a BEACON from the partner node. -/
def State.takeBeacon (role occupancy unfit : Byte) (s : State) : State :=
  match Role.ofCode role.toNat with
  | some .active =>
    let s := s.recordPartner .active occupancy unfit
    if s.isRole .shadow then s.startPartnerSeen
    else if s.isRole .active ∧ s.config.partner.toNat < s.config.own.toNat then s.demote s.config.partner
    else s
  | some .shadow =>
    let s := s.recordPartner .shadow occupancy unfit
    if s.isRole .shadow then s.startPartnerSeen else s
  | _ => s

/-! ## Role requests (R176, R177) -/

/-- R177: ACTIVE or SHADOW to TRANSPARENT. -/
def State.toTransparent (s : State) : State :=
  let s := (((s.clearTracking).restartBank).resetStreams).modLsc fun _ => LineStop.reset
  let s := ((s.withdrawOrders).dropExpectations).modRpt fun r => { r with beaconDue := false }
  s.modRol fun r => { r with role := some .transparent, beaconTimer := none, partnerSeen := none }

/-- R177, R196: a role is entered from TRANSPARENT, or from LOADING. -/
def State.enterRole (r : Role) (s : State) : State :=
  let s := s.modRol fun u => { u with role := some r }
  match r with
  | .transparent => s
  | .active => (s.startBeacon).proveOff
  | .shadow => (s.startBeacon).startPartnerSeen

/-- R176: SET_ROLE from node `src`. -/
def State.changeRole (src : Node) (r : Role) (s : State) : ReplyCode × State :=
  match s.rol.role, r with
  | some .active, .active => (.done, s)
  | some .active, .shadow => (.done, s.demote src)
  | some .active, .transparent => (.done, s.toTransparent)
  | some .shadow, .active => (.done, s.takeover)
  | some .shadow, .shadow => (.done, s)
  | some .shadow, .transparent => (.done, s.toTransparent)
  | some .transparent, .transparent => (.done, s)
  | some .transparent, r =>
    match s.rpt.loop with
    | .normal => (.done, s.enterRole r)
    | .local => (.wrongState, s)
  | none, _ => (.wrongState, s)

/-! ## Partner orders and expectations (R168 to R170) -/

/-- R168: an expectation agrees with a partner order in kind, destination and track reference. -/
def Expectation.meets (dst : Node) (o : OrderWire) (e : Expectation) : Bool :=
  e.dst == dst && e.order.wire.kind == o.kind && e.order.wire.ref == o.ref

/-- The expectation at a place of the list is removed. -/
def State.removeExpectation (k : Nat) : State → State :=
  State.modRol fun r => { r with expectations := r.expectations.eraseIdx k }

/-- R169: TBC is asked to move the entry an ASSIGN names, whose reference must be current. -/
def State.askMove (o : OrderWire) (s : State) : Moved × State :=
  match o.ref, o.content with
  | some r, [m] =>
    if m.toNat < 4 && s.current ⟨r.index.toNat, r.gen⟩ then s.moveHead r.index.toNat m.toNat
    else (.refused, s)
  | _, _ => (.refused, s)

/-- R169: an ASSIGN that matched an expectation with a different head; any outcome but a move counts. -/
def State.assignDiffers (o : OrderWire) (s : State) : State :=
  match s.askMove o with
  | (.moved, s') => s'
  | (_, s') => s'.diverge

/-- R169: an ASSIGN that matched no expectation. -/
def State.assignUnexpected (o : OrderWire) (s : State) : State :=
  match s.askMove o with
  | (.refused, s') => s'.diverge
  | (_, s') => s'

/-- R202: the order kind ASSIGN. -/
def kindAssign : Byte := 2

/-- R202: the order kind TEST. -/
def kindTest : Byte := 3

/-- R168, R169: a well-formed partner order compared with the expectation list. -/
def State.compareOrder (dst : Node) (o : OrderWire) (s : State) : State :=
  match s.rol.expectations.findIdx? (Expectation.meets dst o) with
  | some k =>
    let same := (s.rol.expectations[k]?).any fun e => e.order.wire.content == o.content
    let s := s.removeExpectation k
    if same then s else if o.kind = kindAssign then s.assignDiffers o else s.diverge
  | none => if o.kind = kindAssign then s.assignUnexpected o else s.diverge

/-- R169: a partner TEST reaches the head whose valid station entry holds its destination. -/
def State.testSeen (dst : Node) (s : State) : State :=
  match s.tables.station.find? fun e => e.valid && e.role == .head && e.node == dst with
  | some e => s.leaveLoaded e.head
  | none => s

/-- R168, R169, R199: an ORDER from the partner node reaches ROL in SHADOW role. An ORDER that does not fit its
layout counts one divergence, as R199 says. DESIGN CHOICE (log 35): so does a TEST of a wrong length and it does no
more, taking no head out of LOADED, where R169 lets every partner TEST reach TBC. -/
def State.takePartnerOrder (dst : Node) (payload : List Byte) (s : State) : State :=
  if s.isRole .shadow then
    match parseOrder payload with
    | none => s.diverge
    | some o =>
      let s := s.compareOrder dst o
      if o.kind = kindTest then s.testSeen dst else s
  else s

/-- R170: the timer of the expectation at a place of the list expires. -/
def State.expectationExpired (k : Nat) (s : State) : State :=
  match s.rol.expectations[k]? with
  | none => s
  | some e => ((s.removeExpectation k).diverge).expectationDropped e.order

end Sys2Proof.Machine
end

