-- ==== Sys2Proof/Machine/StartUp.lean ====
section
/-! DEFINITION. Resets, the supply, the autoload and its decoding, the line restart (chapter 10, R145). -/

namespace Sys2Proof.Machine

/-! ## Resets and the supply (R145, R191, R192) -/

/-- R191, R192: every block at its power-on values and the relay closed, with the levels given. -/
def State.held (supply internal pin : Bool) (s : State) : State :=
  State.powerOn { supply := supply, internal := internal, pin := pin, relayClosed := true,
                  memSelect := false } s.out s.free s.pending

/-- R191: the internal power-on reset begins at supply rise. -/
def State.powerOnReset (s : State) : State := s.held true true s.pins.pin

/-- R191: the reset input is asserted. -/
def State.pinReset (s : State) : State := s.held s.pins.supply s.pins.internal true

/-- R145: the supply is lost (log 12). -/
def State.supplyLost (s : State) : State := s.held false false s.pins.pin

/-- R193: the read command: a start bit, the operation bits 1 and 0, five address bits of word 0. -/
def readCommand : List Bool := [true, true, false, false, false, false, false, false]

/-- R192: the release, with the kind of the reset that was released last. -/
def State.released (cause : ResetCause) (s : State) : State :=
  let s := State.powerOn { supply := true, internal := false, pin := false, relayClosed := false,
                           memSelect := true } s.out s.free s.pending
  (s.modCfl fun c => { c with loading := true, cause := cause }).emit (.memory readCommand)

/-- R191, R192: one reset ends; the part is released when no other reset is asserted and the supply is
present (log 14). -/
def State.releaseReset (r : ResetSource) (s : State) : State :=
  match r with
  | .internal =>
    if s.pins.internal then
      if s.pins.pin || !s.pins.supply then s.modPins fun p => { p with internal := false }
      else s.released .powerOn
    else s
  | .pin =>
    if s.pins.pin then
      if s.pins.internal || !s.pins.supply then s.modPins fun p => { p with pin := false }
      else s.released .pin
    else s

/-! ## The configuration words (R194, R195) -/

/-- Word `i` of the words read; a missing word reads as all ones (R193, log 28). -/
def configWord (words : List Half) (i : Nat) : Half := words.getD i 0xFFFF#16

/-- Bits 15 to 8 of word `i`. -/
def configHigh (words : List Half) (i : Nat) : Nat := ((configWord words i).extractLsb' 8 8).toNat

/-- Bits 7 to 0 of word `i`. -/
def configLow (words : List Half) (i : Nat) : Nat := ((configWord words i).extractLsb' 0 8).toNat

/-- A 16-bit number of word `i`, clamped to its range. -/
def configNumber (words : List Half) (i lo hi : Nat) : Nat := clampTo lo hi (configWord words i).toNat

/-- A node, clamped to 0 to 62. -/
def configNode (n : Nat) : Node := BitVec.ofNat 6 (clampTo 0 62 n)

/-- R194: the signature. -/
def signatureValid (words : List Half) : Bool := (configWord words 0).extractLsb' 12 4 == 0b1001#4

/-- R195: start role, by its code. -/
def startRoleOf (code : BitVec 2) : Role :=
  match code.toNat with
  | 1 => .active
  | 2 => .shadow
  | _ => .transparent

/-- R195: unknown-owner action, by its code. -/
def unknownOwnerOf (code : BitVec 2) : UnknownOwner :=
  match code.toNat with
  | 1 => .note
  | 2 => .returnBack
  | _ => .hold

/-- R195: an accepted configuration. -/
def decodeConfiguration (w : List Half) : Configuration :=
  let beacon := configNumber w 3 20 1000
  let high := clampTo 2 24 (configHigh w 10)
  { startRole := startRoleOf ((configWord w 0).extractLsb' 10 2),
    autoTakeover := (configWord w 0).getLsbD 9,
    unknownOwner := unknownOwnerOf ((configWord w 0).extractLsb' 7 2),
    own := configNode (configHigh w 1), partner := configNode (configLow w 1),
    manager := configNode (configHigh w 2), recorder := configNode (configLow w 2),
    beaconPeriod := beacon, takeoverTime := max (configNumber w 4 200 10000) (3 * beacon),
    ringReturn := configNumber w 5 5 1000, loadTimeout := configNumber w 6 5 600,
    rampTimeout := configNumber w 7 10 600, ventTimeout := configNumber w 8 10 600,
    measureTimeout := configNumber w 9 5 300, iqHigh := high,
    iqLow := clampTo 0 (high - 1) (configLow w 10), jamQualify := configNumber w 11 100 30000,
    jamGap := configNumber w 12 50 5000, clearQualify := configNumber w 13 100 30000,
    plantMark := [clampTo 0 63 (configHigh w 14), clampTo 0 63 (configLow w 14),
                  clampTo 0 63 (configHigh w 15), clampTo 0 63 (configLow w 15)],
    condemn := clampTo 0 15 (configLow w 16), proveInterval := configNumber w 17 5 1000 }

/-- R194: the configuration the words give. -/
def configurationOf (words : List Half) : Configuration :=
  if signatureValid words then decodeConfiguration words else Configuration.default

/-- R196: LOADING ends. -/
def State.endLoading (words : List Half) (s : State) : State :=
  if s.cfl.loading then
    let ok := signatureValid words
    let c := configurationOf words
    let s := s.modPins fun p => { p with memSelect := false }
    let s := s.modCfl fun f => { f with loading := false, defaulted := !ok, config := c }
    let s := if ok then s else s.notify .configDefaulted 0
    s.enterRole c.startRole
  else s

/-! ## The line restart (R197) -/

/-- R161 step 3: the halt set is emptied, with RESUME if it was not empty. -/
def State.emptyHalt (s : State) : State :=
  let was := s.lsc.halt.isEmpty
  let s := s.modLsc fun l => { l with halt := HaltSet.none }
  if was then s else s.send (some broadcast) .resume

/-- R197: the line restart, less its reply. -/
def State.lineRestart (s : State) : State :=
  let s := (s.withdrawOrders).dropExpectations
  let s := (s.restartVents).restartBank
  let s := ((s.clearTracking).resetStreams).emptyHalt
  (s.reportIq 0).modCfl fun c => { c with cause := .restart }

end Sys2Proof.Machine
end

