-- ==== Sys2Proof/Machine/Management.lean ====
section
/-! DEFINITION. The management agent (chapter 9): the checks of a request, each request's effect and reply
data, the status sections (R178 to R188, R203, R204). -/

namespace Sys2Proof.Machine

/-- What serving a request gives: a reply code, the reply data, the state after. -/
structure Answer where
  code  : ReplyCode
  data  : List Byte
  state : State
  deriving DecidableEq, Repr

/-- R180: a refused request carries no data and changes no state. -/
def State.refuse (code : ReplyCode) (s : State) : Answer := ⟨code, [], s⟩

/-- A request carried out without reply data, or refused, by its code. -/
def Answer.ofOutcome (o : ReplyCode × State) : Answer := ⟨o.1, [], o.2⟩

/-- R28, R180: DONE_CLAMPED where a number was clamped. -/
def doneCode (clamped : Bool) : ReplyCode := if clamped then .doneClamped else .done

/-! ## Status sections (R183, R204) -/

/-- R204: the PART section, less its section byte. The reply queue is counted before the reply that carries
the section joins it (DESIGN CHOICE, log 32). -/
def State.partSection (s : State) : List Byte :=
  let c := s.config
  let pr := s.rol.partner
  pack ([(2, (s.rol.role.map Role.code).getD 0), (1, flag (s.rpt.loop == .local)), (2, s.cfl.cause.code),
      (1, flag s.cfl.defaulted), (1, flag s.rpt.proving.on), (1, flag s.mga.override.isSome),
      (8, c.own.toNat), (8, c.partner.toNat), (8, c.manager.toNat), (8, c.recorder.toNat),
      (2, c.startRole.code), (1, flag c.autoTakeover), (2, s.rpt.proving.checker.code),
      (1, flag s.rol.unfit), (2, 0), (8, orAbsent (s.mga.date.map Date.year)),
      (8, (s.mga.date.map Date.month).getD (Config.statusField s.free 1))] ++
    s.plantMark.map (fun m => (8, m)) ++
    [(8, s.rpt.orders.length), (8, s.rpt.replies.length), (8, s.rpt.notices.length),
      (8, s.rpt.outstanding.length), (8, s.rol.expectations.length), (2, pr.presence.code),
      (2, (pr.role.map Role.code).getD 0), (2, optCode flag pr.unfit), (2, 0),
      (8, orAbsent pr.occupancy), (8, s.rol.divergence)])

/-- The entry index of a gate's served item. -/
def Item.index : Item → Option Nat
  | .entry i => some i
  | .marker => none

/-- R204: a gate record. -/
def gateFields {ρ : Type} (g : GateRecord ρ) : List (Nat × Nat) :=
  [(2, g.state.code), (1, flag (g.item == some .marker)), (1, flag g.stored.isSome),
   (1, flag g.last.isSome), (3, 0), (8, orAbsent (g.item.bind Item.index)),
   (8, orAbsent (g.stored.map BitVec.toNat)), (8, orAbsent (g.last.map BitVec.toNat))]

/-- R204: the stamp slot. -/
def slotFields (c : StampSlot) : List (Nat × Nat) :=
  let (code, index) := match c.content with
    | .empty => (0, none)
    | .entry i => (1, some i)
    | .marker _ => (2, none)
  [(2, code), (2, c.stage.code), (4, 0), (8, orAbsent index)]

/-- R204: a head. -/
def headFields (h : HeadRecord) : List (Nat × Nat) :=
  [(4, h.state.code), (1, flag h.faulted), (3, 0), (8, orAbsent h.cylinder)]

/-- R204: the JAM causes, entry 0 first. -/
def jamFields (h : HaltSet) : List (Nat × Nat) :=
  (List.range 16).map fun e => (1, flag (h.jams.getLsbD e))

/-- R204: the LINE section, less its section byte. IQ takes no reservations. Each queue's occupancy is
followed by its reservation count (DESIGN CHOICE: R204 does not say whether the bytes go queue by queue,
log 33). -/
def State.lineSection (s : State) : List Byte :=
  pack ([(8, s.occupancy), (8, s.trk.iq.length), (8, 0), (8, s.trk.fq.length), (8, s.reserved .fq),
      (8, s.trk.xq.length), (8, s.reserved .xq), (8, s.trk.gq.length), (8, s.reserved .gq),
      (8, s.trk.closing.length)] ++
    gateFields s.scr.gate ++ gateFields s.fcu.gate ++ slotFields s.fcu.slot ++
    [(1, flag s.tbc.loader.serving.isSome), (2, s.tbc.loader.serving.getD (Config.statusField s.free 0)),
      (5, 0)] ++
    s.tbc.heads.flatMap headFields ++
    [(1, flag s.lsc.halt.manual), (1, flag s.lsc.halt.overrun), (1, flag (s.lsc.feed == .hold)), (5, 0)] ++
    jamFields s.lsc.halt)

/-- R204: the byte of one station entry. -/
def stationFields (e : StationEntry) (r : StreamRecord) (q : JamQualifier) : List (Nat × Nat) :=
  [(1, flag e.valid), (2, r.state.code), (2, q.state.code), (3, 0)]

/-- R204: the STATIONS section, less its section byte. -/
def State.stationsSection (s : State) : List Byte :=
  pack ((List.range 16).flatMap fun e => stationFields (s.station e) (s.stream e) (s.jam e))

/-- R183: STATUS. -/
def State.serveStatus (part : Byte) (s : State) : Answer :=
  match part.toNat with
  | 0 => ⟨.done, part :: s.partSection, s.useFree⟩
  | 1 => ⟨.done, part :: s.lineSection, s.useFree⟩
  | 2 => ⟨.done, part :: s.stationsSection, s.useFree⟩
  | _ => s.refuse .badRequest

/-! ## Tables (R26 to R34, R181, R182) -/

/-- R181: SELECT. -/
def State.serveSelect (table index : Byte) (s : State) : Answer :=
  match TableName.ofCode table.toNat with
  | none => s.refuse .badRequest
  | some t =>
    if index.toNat < t.size then
      ⟨.done, [table, index], s.modMga fun m => { m with table := t, index := index.toNat }⟩
    else s.refuse .range

/-- R182: a table entry as READ returns it. -/
def State.tableEntry (t : TableName) (i : Nat) (s : State) : List Byte :=
  match t with
  | .station => (s.tables.station.getD i StationEntry.reset).bytes
  | .cls => (s.tables.cls.getD i ClassEntry.reset).bytes
  | .owner => (s.tables.owner.getD i OwnerEntry.reset).bytes
  | .recallList => (s.tables.recallList.getD i RecallEntry.reset).bytes
  | .glyph => (s.tables.glyph.getD i GlyphEntry.reset).bytes
  | .template => templateBytes (s.tables.template.getD i [])

/-- R182: the pointer advances by one. -/
def State.advancePointer : State → State := State.modMga fun m => { m with index := m.index + 1 }

/-- R182: the pointer's table and index, as reply data. -/
def State.pointerData (s : State) : List Byte := [byte s.mga.table.code, byte s.mga.index]

/-- R182: READ. -/
def State.serveRead (s : State) : Answer :=
  if s.mga.index < s.mga.table.size then
    ⟨.done, s.pointerData ++ s.tableEntry s.mga.table s.mga.index, s.advancePointer⟩
  else s.refuse .range

/-- R30: two valid entries may not both stand. -/
def StationEntry.clashes (a b : StationEntry) : Bool :=
  a.node == b.node || (a.role != .other && a.role == b.role && (a.role != .head || a.head == b.head))

/-- R30: writing an entry at an index is refused with CONFLICT. -/
def State.conflicts (i : Nat) (e : StationEntry) (s : State) : Bool :=
  e.valid && (e.node == s.config.own ||
    (List.range 16).any fun j => j != i && (s.station j).valid && e.clashes (s.station j))

/-- R28, R182: an entry is stored at the pointer, which then advances. -/
def State.storeEntry (clamped : Bool) (f : Tables → Tables) (s : State) : Answer :=
  ⟨doneCode clamped, s.pointerData, (s.modTables f).advancePointer⟩

/-- R28, R30, R34: a station entry validated and stored. -/
def State.writeStation (i : Nat) (entry : List Byte) (s : State) : Answer :=
  match parseStation entry with
  | none => s.refuse .badRequest
  | some (e, clamped) =>
    if s.conflicts i e then s.refuse .conflict
    else
      let a := s.storeEntry clamped fun t => { t with station := t.station.set i e }
      { a with state := a.state.resetStation i }

/-- R28, R40: a recall entry validated and stored. -/
def State.writeRecall (i : Nat) (entry : List Byte) (s : State) : Answer :=
  match parseRecall entry with
  | none => s.refuse .badRequest
  | some (e, clamped) =>
    if e.last < e.first then s.refuse .range
    else s.storeEntry clamped fun t => { t with recallList := t.recallList.set i e }

/-- R28: an entry of the pointer's table validated and stored. -/
def State.writeEntry (i : Nat) (entry : List Byte) (s : State) : Answer :=
  match s.mga.table with
  | .station => s.writeStation i entry
  | .recallList => s.writeRecall i entry
  | .cls =>
    match parseClass entry with
    | none => s.refuse .badRequest
    | some (e, c) => s.storeEntry c fun t => { t with cls := t.cls.set i e }
  | .owner =>
    match parseOwner entry with
    | none => s.refuse .badRequest
    | some (e, c) => s.storeEntry c fun t => { t with owner := t.owner.set i e }
  | .glyph =>
    match parseGlyph entry with
    | none => s.refuse .badRequest
    | some (e, c) => s.storeEntry c fun t => { t with glyph := t.glyph.set i e }
  | .template =>
    match parseTemplate entry with
    | none => s.refuse .badRequest
    | some (e, c) => s.storeEntry c fun t => { t with template := t.template.set i e }

/-- R182: WRITE: the length first, then the table end, then the entry. -/
def State.serveWrite (entry : List Byte) (s : State) : Answer :=
  if entryFits s.mga.table entry then
    if s.mga.index < s.mga.table.size then s.writeEntry s.mga.index entry else s.refuse .range
  else s.refuse .badRequest

/-! ## Records, counters, held values -/

/-- R184: TRACK_READ. -/
def State.serveTrackRead (index : Byte) (s : State) : Answer :=
  if index.toNat < 80 then
    ⟨.done, (s.entry index.toNat).bytes (Config.absentField s.free), s.useFree⟩
  else s.refuse .range

/-- R187: counters as reply data, 32 bits each. -/
def counterBytes (cs : List Nat) : List Byte := cs.flatMap full'

/-- R187: COUNTERS. -/
def State.serveCounters (group : Byte) (s : State) : Answer :=
  let cs := s.mga.counters
  match group.toNat with
  | 0 => ⟨.done, group :: counterBytes (cs.take 7), s⟩
  | 1 => ⟨.done, group :: counterBytes ((cs.drop 7).take 7), s⟩
  | 2 => ⟨.done, group :: counterBytes (cs.drop 14), s⟩
  | _ => s.refuse .badRequest

/-- R188: CLEAR_COUNTERS. -/
def State.clearCounters (s : State) : State :=
  (s.modMga fun m => { m with counters := List.replicate 22 0 }).modRol fun r =>
    { r with divergence := 0, unfit := false }

/-- R45: SET_DATE. -/
def State.serveSetDate (year month : Byte) (s : State) : Answer :=
  let d : Date := { year := clampTo 0 99 year.toNat, month := clampTo 1 12 month.toNat }
  ⟨doneCode (outside 0 99 year.toNat || outside 1 12 month.toNat), [byte d.year, byte d.month],
    s.modMga fun m => { m with date := some d }⟩

/-- R46: SET_PLANT_MARK. -/
def State.serveSetPlantMark (codes : List Byte) (s : State) : Answer :=
  let stored := codes.map fun c => clampTo 0 63 c.toNat
  ⟨doneCode (codes.any fun c => outside 0 63 c.toNat), stored.map byte,
    s.modMga fun m => { m with override := some stored }⟩

/-! ## Role, loop, heads, holds, halts, proving -/

/-- R176: SET_ROLE. -/
def State.serveSetRole (src : Node) (role : Byte) (s : State) : Answer :=
  match Role.ofCode role.toNat with
  | none => s.refuse .badRequest
  | some r => .ofOutcome (s.changeRole src r)

/-- R141: SET_LOOP. -/
def State.serveSetLoop (mode : Byte) (s : State) : Answer :=
  match mode.toNat with
  | 0 => ⟨.done, [], s.modRpt fun r => { r with loop := .normal }⟩
  | 1 => if s.isRole .transparent then ⟨.done, [], s.modRpt fun r => { r with loop := .local }⟩
    else s.refuse .wrongState
  | _ => s.refuse .badRequest

/-- R100: HEAD. -/
def State.serveHead (head action : Byte) (s : State) : Answer :=
  let n := head.toNat
  if 3 < action.toNat then s.refuse .badRequest
  else if 3 < n then s.refuse .range
  else match action.toNat with
    | 0 => .ofOutcome (s.retestHead n)
    | 1 => .ofOutcome (s.abortHead n)
    | 2 => .ofOutcome (s.disableHead n)
    | _ => .ofOutcome (s.enableHead n)

/-- R63, R122, R185: OPERATOR_HOLD is added, and the gates recompute the route of an entry they serve. -/
def State.operatorHold (i : Nat) (s : State) : State :=
  if (s.record i).findings.contains .operatorHold then s
  else ((s.addFinding i .operatorHold).rerouteGateA i).rerouteGateB i

/-- R185: TRACK_HOLD. -/
def State.serveTrackHold (ref : WireRef) (s : State) : Answer :=
  let i := ref.index.toNat
  if s.current ⟨i, ref.gen⟩ && (s.entry i).place != .closing then ⟨.done, [], s.operatorHold i⟩
  else s.refuse .wrongState

/-- R158: HALT_MANUAL ON. -/
def State.haltManualOn (s : State) : ReplyCode × State :=
  if s.isRole .active then
    let s' := s.addCause .manual
    (.done, if s.lsc.halt.isEmpty then s' else s'.send (some broadcast) .halt)
  else if s.isRole .shadow then (.done, s.addCause .manual)
  else (.wrongState, s)

/-- R158: HALT_MANUAL OFF. -/
def State.haltManualOff (s : State) : ReplyCode × State :=
  if s.isRole .active then
    let s' := s.removeCause .manual
    (.done, if s.lsc.halt.isEmpty then s'.send (some broadcast) .resume else s')
  else if s.isRole .shadow then (.done, s.removeCause .manual)
  else (.done, s)

/-- R158: HALT_MANUAL. -/
def State.serveHaltManual (on : Byte) (s : State) : Answer :=
  match on.toNat with
  | 0 => .ofOutcome s.haltManualOff
  | 1 => .ofOutcome s.haltManualOn
  | _ => s.refuse .badRequest

/-- R158: CLEAR_OVERRUN. -/
def State.clearOverrun (s : State) : State := if s.tracking then s.removeCause .overrun else s

/-- R142: a start or restart of proving. -/
def State.proveStart (s : State) : State :=
  s.modProving fun _ =>
    { Proving.reset with on := true, interval := some s.config.proveInterval, checker := .seeking }

/-- R142: PROVE. -/
def State.serveProve (action : Byte) (s : State) : Answer :=
  match action.toNat with
  | 0 => if s.isRole .active then s.refuse .wrongState else ⟨.done, [], s.proveStart⟩
  | 1 => ⟨.done, [], if s.rpt.proving.on && !s.isRole .active then s.proveOff else s⟩
  | 2 =>
    if s.rpt.proving.on && !s.isRole .active then
      ⟨.done, [], s.modProving fun p => { p with insertion := true }⟩
    else s.refuse .wrongState
  | _ => s.refuse .badRequest

/-! ## Serving (R178, R193) -/

/-- R178 step 4: a request whose kind, source and form have passed. -/
def State.carryOut (src : Node) (r : Request) (s : State) : Answer :=
  match r with
  | .status part => s.serveStatus part
  | .select t i => s.serveSelect t i
  | .read => s.serveRead
  | .write e => s.serveWrite e
  | .trackRead i => s.serveTrackRead i
  | .counters g => s.serveCounters g
  | .clearCounters => ⟨.done, [], s.clearCounters⟩
  | .setDate y m => s.serveSetDate y m
  | .setRole role => s.serveSetRole src role
  | .setLoop m => s.serveSetLoop m
  | .head h a => s.serveHead h a
  | .trackHold ref => s.serveTrackHold ref
  | .haltManual v => s.serveHaltManual v
  | .clearOverrun => ⟨.done, [], s.clearOverrun⟩
  | .prove a => s.serveProve a
  | .setPlantMark a b c d => s.serveSetPlantMark [a, b, c, d]
  | .restart => ⟨.done, [], s.lineRestart⟩

/-- R178: the checks in order, and the request carried out. -/
def State.serve (src : Node) (payload : List Byte) (s : State) : Answer :=
  match payload with
  | [] => s.refuse .badRequest
  | k :: body =>
    if !requestKindKnown k then s.refuse .badRequest
    else if requestKindManager k && src != s.config.manager then s.refuse .refusedSource
    else match parseRequest k body with
      | none => s.refuse .badRequest
      | some r => s.carryOut src r

/-- R178, R193: what answers a request: NOT_READY while LOADING, else the service. -/
def State.answerTo (src : Node) (payload : List Byte) (s : State) : Answer :=
  if s.cfl.loading then s.refuse .notReady else s.serve src payload

/-- R180, R199: the kind byte a reply echoes; a free value where the request has none (log 10). -/
def echoedKind (free : Nat) (payload : List Byte) : Byte := payload.headD (Config.missingKind free)

/-- R129, R178, R180, R193: a request consumed: discarded when the reply queue is full, else served, its
reply joining the queue. -/
def State.consumeRequest (src : Node) (seq : Byte) (payload : List Byte) (s : State) : State :=
  if s.replyRoom then
    let kind := echoedKind s.free payload
    let a := s.answerTo src payload
    let s' := if payload.isEmpty then a.state.useFree else a.state
    s'.pushReply { dst := src, kind := kind, seq := seq, code := a.code, data := a.data }
  else s.count .requestsDropped 1

end Sys2Proof.Machine
end

