-- ==== Sys2Proof/WellFormed.lean ====
section
/-! DEFINITION. Which commands are well formed. Most operands are bounded by their types; the checks
here are on the operands that are lists or list places. -/

namespace Sys2Proof

/-- A payload holds at most 48 bytes (R126). -/
def maxPayload : Nat := 48

/-- The checks, one per kind of operand:
the configuration memory has 32 words (R193); a received frame is a run of at least one byte (R198); a
payload has at most 48 bytes (R126), so the entry of a WRITE at most 47; the outstanding order list and
the expectation list have 16 places (R137, R167). -/
def Instr.wellFormed : Instr → Bool
  | .endOfLoading words => words.length == 32
  | .frameReceive _ bytes => !bytes.isEmpty
  | .requestInLoading _ _ _ payload => payload.length ≤ maxPayload
  | .proveReturn _ _ payload => payload.length ≤ maxPayload
  | .partnerOrder _ _ payload => payload.length ≤ maxPayload
  | .write _ _ entry => entry.length < maxPayload
  | .ringReturnTimerExpiry place => place < 16
  | .expectationTimerExpiry place => place < 16
  | _ => true

end Sys2Proof
end

