-- ==== Sys2Proof/Machine/Ring.lean ====
section
/-! DEFINITION. The ring port (chapter 6): reception, the outstanding order list, the insert arbiter,
ring proving. -/

namespace Sys2Proof.Machine

/-! ## Returned frames of the part's own (R128, R130, R138, R141, R143, R144) -/

/-- R138: the oldest outstanding element with the sequence number is removed. -/
def State.orderReturned (seq : Byte) : State → State :=
  State.modRpt fun r => { r with outstanding := r.outstanding.eraseP fun o => o.seq == seq }

/-- R143: the error count of a returned prove frame; a payload of another length gives a free value. -/
def proveErrors (free : Nat) (payload expected : List Byte) : Nat :=
  if payload.length = 32 then bitErrors payload expected else Config.oddProveErrors free payload

/-- R144: the window with one more result, at most 16. -/
def pushResult (good : Bool) (w : List Bool) : List Bool :=
  let w := w ++ [good]
  w.drop (w.length - 16)

/-- R144: the checker's part of the proving state after a good or a bad frame. -/
def Proving.check (good : Bool) (p : Proving) : Proving :=
  match p.checker with
  | .off => p
  | .seeking =>
    if good then
      if p.run + 1 = 4 then { p with checker := .locked, run := 4, window := [] }
      else { p with run := p.run + 1 }
    else { p with run := 0 }
  | .locked =>
    let w := pushResult good p.window
    if 4 ≤ w.count false then { p with checker := .seeking, run := 0, window := w }
    else { p with window := w }

/-- R143: the proving state after the element at place `k`, with position `pos`, was found: the list cut,
the pending loss taken, the expected copy advanced past the frame. -/
def Proving.found (k pos : Nat) (p : Proving) : Proving :=
  { p with list := p.list.drop (k + 1), loss := 0,
           expected := proveSkips (pos + 1 - p.expectedPos) p.expected, expectedPos := pos + 1 }

/-- R143: the payload the expected copy gives at stream position `pos`. -/
def Proving.expectedPayload (pos : Nat) (p : Proving) : List Byte :=
  bytesOfBits (proveBits 256 (proveSkips (pos - p.expectedPos) p.expected)).1

/-- R143, R144: a PROVE frame of the part's own returns intact. -/
def State.proveReturned (seq : Byte) (payload : List Byte) (s : State) : State :=
  let p := s.rpt.proving
  match p.list.findIdx? fun e => e.seq == seq with
  | none => s
  | some k =>
    let pos := ((p.list[k]?).map ProveElement.position).getD 0
    let gap := k + p.loss
    let errors := proveErrors s.free payload (p.expectedPayload pos)
    let good := gap == 0 && errors == 0
    let s := if payload.length = 32 then s else s.useFree
    let s := if p.checker = .locked then (s.count .proveBitErrors errors).count .proveFramesLost gap else s
    s.modProving fun p => (p.found k pos).check good

/-- R130, R141: a returned frame of the part's own is taken, not merely removed. -/
def State.takesReturn (path : RxPath) (s : State) : Bool :=
  match path with
  | .ring => !s.cfl.loading && s.rpt.loop == .normal
  | .loop => !s.cfl.loading

/-- R128: an ORDER of the part's own returns intact. -/
def State.receiveOwnOrder (path : RxPath) (seq : Byte) (s : State) : State :=
  if s.onRing && s.takesReturn path then s.orderReturned seq else s

/-- R128: a PROVE frame of the part's own returns intact. -/
def State.receiveOwnProve (path : RxPath) (seq : Byte) (payload : List Byte) (s : State) : State :=
  if s.onRing && s.takesReturn path then s.proveReturned seq payload else s

/-! ## Intact frames from the ring, by kind (R128 to R131) -/

/-- R128, R145: the part sees the frame, and it is not its own. -/
def State.seesForeign (src : Node) (s : State) : Bool := s.onRing && src != s.ownNode

/-- R129, R130: an intact REPORT; none for a payload that fits no layout. -/
def State.receiveReport (src : Node) (seq : Byte) (r : Option Report) (raw : List Byte) (s : State) : State :=
  if s.seesForeign src then
    let s := s.repeatFrame raw
    if !s.cfl.loading && s.tracking then s.acceptReport src seq r else s
  else s

/-- R129, R130: frames from the partner node go to ROL. -/
def State.toRole (src : Node) (s : State) : Bool :=
  !s.cfl.loading && s.rpt.loop == .normal && src == s.config.partner

/-- R129, R130: an intact ORDER from another node. -/
def State.receiveOrder (dst src : Node) (payload raw : List Byte) (s : State) : State :=
  if s.seesForeign src then
    let s := s.repeatFrame raw
    if s.toRole src then s.takePartnerOrder dst payload else s
  else s

/-- R166, R199: a partner BEACON's payload; another length than 3 is ignored. -/
def State.takeBeaconPayload (payload : List Byte) (s : State) : State :=
  match payload with
  | [role, occupancy, unfit] => s.takeBeacon role occupancy unfit
  | _ => s

/-- R129, R130: an intact BEACON from another node. -/
def State.receiveBeacon (src : Node) (payload raw : List Byte) (s : State) : State :=
  if s.seesForeign src then
    let s := s.repeatFrame raw
    if s.toRole src then s.takeBeaconPayload payload else s
  else s

/-- R129, R193: a REQUEST is for the part: its own node, or any single node while LOADING. -/
def State.requestForPart (dst : Node) (s : State) : Bool :=
  if s.cfl.loading then dst != broadcast else dst == s.ownNode

/-- R129, R130, R193: an intact REQUEST from another node. -/
def State.receiveRequest (dst src : Node) (seq : Byte) (payload raw : List Byte) (s : State) : State :=
  if s.seesForeign src then
    if s.requestForPart dst then s.consumeRequest src seq payload else s.repeatFrame raw
  else s

/-! ## Raw frames (R128, R198) -/

/-- R198: a run of bytes as a frame that passes its check; none if it fails. -/
def parseFrame (raw : List Byte) : Option Frame :=
  match raw with
  | d :: s :: k :: q :: len :: rest =>
    if rest.length = len.toNat + 2 then
      let payload := rest.take len.toNat
      let f : Frame := { dst := d.truncate 6, src := s.truncate 6, kind := k, seq := q, payload := payload }
      if rest.drop len.toNat = half (frameCheck (d :: s :: k :: q :: len :: payload)) then some f else none
    else none
  | _ => none

/-- R198: the length field is above 48. -/
def overLength : List Byte → Bool
  | _ :: _ :: _ :: _ :: len :: _ => maxPayload < len.toNat
  | _ => false

/-- R198: the source field, if at least 2 bytes arrived. -/
def rawSource : List Byte → Option Node
  | _ :: s :: _ => some (s.truncate 6)
  | _ => none

/-- R128 test 1: a frame of the part's own, by either path. -/
def State.receiveOwn (path : RxPath) (raw : List Byte) (s : State) : State :=
  if overLength raw then s.count .longFrame 1
  else match parseFrame raw with
    | none => s.count .badCheck 1
    | some f =>
      if f.kind = kindOrder then s.receiveOwnOrder path f.seq
      else if f.kind = kindProve then s.receiveOwnProve path f.seq f.payload
      else s

/-- R128 tests 4 and 5: an intact frame of another node. -/
def State.receiveIntact (f : Frame) (raw : List Byte) (s : State) : State :=
  match f.kind.toNat with
  | 1 => s.receiveReport f.src f.seq (parseReport f.payload) raw
  | 2 => s.receiveOrder f.dst f.src f.payload raw
  | 3 => s.receiveRequest f.dst f.src f.seq f.payload raw
  | 4 | 5 | 7 => s.repeatFrame raw
  | 6 => s.receiveBeacon f.src f.payload raw
  | _ => (s.repeatFrame raw).count .unknownKind 1

/-- R128: the tests on a frame of another node. -/
def State.receiveOther (raw : List Byte) (s : State) : State :=
  if overLength raw then (s.repeatFrame raw).count .longFrame 1
  else match parseFrame raw with
    | none => (s.repeatFrame raw).count .badCheck 1
    | some f => s.receiveIntact f raw

/-- R128, R141, R198: a run of bytes received. -/
def State.receive (path : RxPath) (raw : List Byte) (s : State) : State :=
  if s.onRing then
    if rawSource raw = some s.ownNode then s.receiveOwn path raw
    else match path with
      | .ring => s.receiveOther raw
      | .loop => s
  else s

/-- R131, R141: the frame under way has been sent whole, and the held frames follow it; a frame of the local
loop has come round it and is received, as if it had come round the ring (DESIGN CHOICE: in the event in which
it has been sent, log 34). -/
def State.completeSending (s : State) : State :=
  match s.rpt.sending with
  | some (.loop bytes) => s.finishSending.receive .loop bytes
  | _ => s.finishSending

/-! ## The insert arbiter (R126, R136, R164) -/

/-- The frame the arbiter took, with the emit counter's value as its sequence number. -/
def State.stamped (dst : Node) (kind : Byte) (payload : List Byte) (s : State) : Frame :=
  { dst := dst, src := s.ownNode, kind := kind, seq := s.rpt.emitCount, payload := payload }

/-- R126, R136, R141: a frame is taken: the emit counter advances, and the frame is being sent to the ring
output or to the local loop. -/
def State.launch (dst : Node) (kind : Byte) (payload : List Byte) (s : State) : State :=
  let bytes := (s.stamped dst kind payload).bytes
  s.modRpt fun r =>
    { r with emitCount := r.emitCount + 1,
             sending := some (match r.loop with
               | .normal => .ring bytes
               | .local => .loop bytes) }

/-- R137: the order taken leaves its queue and enters the outstanding order list. -/
def State.takeOrder (o : OrderFrame) (rest : List OrderFrame) (s : State) : State :=
  let s := s.modRpt fun r =>
    { r with orders := rest,
             outstanding := r.outstanding ++ [⟨r.emitCount, o.dst, s.config.ringReturn⟩] }
  s.launch o.dst kindOrder o.order.payload

/-- R136: the reply taken leaves its queue. -/
def State.takeReply (r : Reply) (rest : List Reply) (s : State) : State :=
  (s.modRpt fun p => { p with replies := rest }).launch r.dst kindReply r.payload

/-- R135: the beacon's payload, from the values standing now. -/
def State.beaconPayload (s : State) : List Byte :=
  [byte ((s.rol.role.map Role.code).getD 0), byte s.occupancy, byte (flag s.rol.unfit)]

/-- R135: the beacon is taken. -/
def State.takeOwnBeacon (s : State) : State :=
  let payload := s.beaconPayload
  (s.modRpt fun r => { r with beaconDue := false }).launch broadcast kindBeacon payload

/-- An EVENT notice. -/
def Notice.isEvent : Notice → Bool
  | .event .. => true
  | .result .. => false

/-- R164: the place of the notice the arbiter may take: the head in ACTIVE role, else the oldest EVENT. -/
def State.noticePlace (s : State) : Option Nat :=
  s.rpt.notices.findIdx? fun n => s.isRole .active || n.isEvent

/-- R134: a notice is taken, and the freed place is offered to the closing list. -/
def State.takeNotice (n : Notice) (k : Nat) (s : State) : State :=
  ((s.modRpt fun r => { r with notices := r.notices.eraseIdx k }).launch n.dst kindNotice n.payload).serveClosing

/-- R142: bit 0 of the first byte inverted. -/
def invertFirst : List Byte → List Byte
  | b :: rest => (b ^^^ 1) :: rest
  | [] => []

/-- R142: the payload of the next prove frame. -/
def Proving.payload (p : Proving) : List Byte :=
  let bytes := bytesOfBits (proveBits 256 p.generator).1
  if p.insertion then invertFirst bytes else bytes

/-- R143: the proving state once a prove frame with a sequence number has been taken. -/
def Proving.taken (seq : Byte) (interval : Nat) (p : Proving) : Proving :=
  let full := 16 ≤ p.list.length
  { p with generator := proveSkip p.generator, position := p.position + 1, insertion := false,
           due := false, interval := some interval,
           list := (if full then p.list.tail else p.list) ++ [⟨seq, p.position⟩],
           loss := if full then min (p.loss + 1) 255 else p.loss }

/-- R142, R143: a prove frame is taken. -/
def State.takeProve (s : State) : State :=
  let payload := s.rpt.proving.payload
  (s.modProving (Proving.taken s.rpt.emitCount s.config.proveInterval)).launch s.ownNode kindProve payload

/-- R136 source 1: the head of the order queue is ready. R164: only in ACTIVE role. -/
def State.orderReady (s : State) : Bool :=
  s.isRole .active && s.rpt.outstanding.length < outstandingCapacity

/-- R136: the first ready source is taken. -/
def State.arbitrate (s : State) : State :=
  match (if s.orderReady then s.rpt.orders else []), s.rpt.replies with
  | o :: rest, _ => s.takeOrder o rest
  | [], r :: rest => s.takeReply r rest
  | [], [] =>
    if s.rpt.beaconDue then s.takeOwnBeacon
    else match s.noticePlace with
      | some k => match s.rpt.notices[k]? with
        | some n => s.takeNotice n k
        | none => s
      | none => if s.rpt.proving.on && s.rpt.proving.due then s.takeProve else s

/-- R131, R136: a transmit gap: what was being sent has been sent (log 5), and the arbiter is asked. -/
def State.gap (s : State) : State := if s.onRing then (s.completeSending).arbitrate else s

/-! ## Timers (R139, R142) -/

/-- R139: the ring-return timer of an outstanding order expires. -/
def State.ringReturnExpired (k : Nat) (s : State) : State :=
  match s.rpt.outstanding[k]? with
  | none => s
  | some o =>
    ((s.modRpt fun r => { r with outstanding := r.outstanding.eraseIdx k }).count .ordersLost 1).notify
      .orderLost o.dst.toNat

/-- R142: the prove interval timer expires. -/
def State.proveIntervalExpired (s : State) : State :=
  match s.rpt.proving.interval with
  | none => s
  | some _ => s.modProving fun p => { p with due := true, interval := none }

end Sys2Proof.Machine
end

