-- ==== Sys2Proof/Machine/ExecRing.lean ====
section
/-! DEFINITION. What the start-up, ring and role commands do. -/

namespace Sys2Proof.Machine

/-- A command is one event, and always leads to a next state. -/
def State.taken (f : State → State) (s : State) : Host.Outcome State Fault Refusal := .next (s.event f)

/-- POWER_ON_RESET (R191). -/
def execPowerOnReset (s : State) : Host.Outcome State Fault Refusal := s.taken State.powerOnReset

/-- PIN_RESET (R191). -/
def execPinReset (s : State) : Host.Outcome State Fault Refusal := s.taken State.pinReset

/-- RESET_RELEASE (R192). -/
def execResetRelease (r : ResetSource) (s : State) : Host.Outcome State Fault Refusal :=
  s.taken (State.releaseReset r)

/-- END_OF_LOADING (R194 to R196). -/
def execEndOfLoading (words : List Half) (s : State) : Host.Outcome State Fault Refusal :=
  s.taken (State.endLoading words)

/-- SUPPLY_LOSS (R145). -/
def execSupplyLoss (s : State) : Host.Outcome State Fault Refusal := s.taken State.supplyLost

/-- FRAME_RECEIVE (R128, R198). -/
def execFrameReceive (path : RxPath) (bytes : List Byte) (s : State) : Host.Outcome State Fault Refusal :=
  s.taken (State.receive path bytes)

/-- The bytes of an intact REQUEST frame. -/
def requestRaw (dst src : Node) (seq : Byte) (payload : List Byte) : List Byte :=
  (Frame.mk dst src kindRequest seq payload).bytes

/-- REQUEST_IN_LOADING (R193): an intact REQUEST to any node. -/
def execRequestInLoading (dst src : Node) (seq : Byte) (payload : List Byte) (s : State) :
    Host.Outcome State Fault Refusal :=
  s.taken (State.receiveRequest dst src seq payload (requestRaw dst src seq payload))

/-- ORDER_RETURN (R138). -/
def execOrderReturn (path : RxPath) (seq : Byte) (s : State) : Host.Outcome State Fault Refusal :=
  s.taken (State.receiveOwnOrder path seq)

/-- PROVE_RETURN (R143, R144). -/
def execProveReturn (path : RxPath) (seq : Byte) (payload : List Byte) (s : State) :
    Host.Outcome State Fault Refusal :=
  s.taken (State.receiveOwnProve path seq payload)

/-- TRANSMIT_GAP (R131, R136). -/
def execTransmitGap (s : State) : Host.Outcome State Fault Refusal := s.taken State.gap

/-- RING_RETURN_TIMER_EXPIRY (R139). -/
def execRingReturnTimerExpiry (place : Nat) (s : State) : Host.Outcome State Fault Refusal :=
  s.taken (State.ringReturnExpired place)

/-- PROVE_INTERVAL_EXPIRY (R142). -/
def execProveIntervalExpiry (s : State) : Host.Outcome State Fault Refusal := s.taken State.proveIntervalExpired

/-- BEACON_TIMER_EXPIRY (R165). -/
def execBeaconTimerExpiry (s : State) : Host.Outcome State Fault Refusal := s.taken State.beaconExpired

/-- The bytes of the partner's BEACON. -/
def beaconRaw (src : Node) (seq role occupancy unfit : Byte) : List Byte :=
  (Frame.mk broadcast src kindBeacon seq [role, occupancy, unfit]).bytes

/-- PARTNER_BEACON (R166, R172, R174): an intact BEACON from the partner node. -/
def execPartnerBeacon (seq role occupancy unfit : Byte) (s : State) : Host.Outcome State Fault Refusal :=
  let src := s.config.partner
  s.taken (State.receiveBeacon src [role, occupancy, unfit] (beaconRaw src seq role occupancy unfit))

/-- PARTNER_SEEN_TIMER_EXPIRY (R172). -/
def execPartnerSeenTimerExpiry (s : State) : Host.Outcome State Fault Refusal :=
  s.taken State.partnerSeenExpired

/-- The bytes of an ORDER of the partner. -/
def orderRaw (dst src : Node) (seq : Byte) (payload : List Byte) : List Byte :=
  (Frame.mk dst src kindOrder seq payload).bytes

/-- PARTNER_ORDER (R168, R169): an intact ORDER from the partner node. -/
def execPartnerOrder (dst : Node) (seq : Byte) (payload : List Byte) (s : State) :
    Host.Outcome State Fault Refusal :=
  let src := s.config.partner
  s.taken (State.receiveOrder dst src payload (orderRaw dst src seq payload))

/-- EXPECTATION_TIMER_EXPIRY (R170). -/
def execExpectationTimerExpiry (place : Nat) (s : State) : Host.Outcome State Fault Refusal :=
  s.taken (State.expectationExpired place)

end Sys2Proof.Machine
end

