-- ==== Sys2Proof/Machine/ExecReports.lean ====
section
/-! DEFINITION. What the report commands do: each is one intact REPORT frame from a node, which the part's
state sends to the block the sender's role names (R31, R32, R129; log 6). -/

namespace Sys2Proof.Machine

/-- The bytes of an intact REPORT frame to all nodes. -/
def reportRaw (src : Node) (seq : Byte) (r : Report) : List Byte :=
  (Frame.mk broadcast src kindReport seq r.payload).bytes

/-- R129: an intact REPORT frame to all nodes is received. -/
def State.report (src : Node) (seq : Byte) (r : Report) (s : State) : Host.Outcome State Fault Refusal :=
  s.taken (State.receiveReport src seq (some r) (reportRaw src seq r))

/-- INDUCTION_TAG (R47 to R56). -/
def execInductionTag (src : Node) (seq : Byte) (tag : TagRead) (s : State) : Host.Outcome State Fault Refusal :=
  s.report src seq (.tag tag)

/-- WEIGHT (R57 to R59). -/
def execWeight (src : Node) (seq : Byte) (grams : BitVec 32) (stable : Bool) (s : State) : Host.Outcome State Fault Refusal :=
  s.report src seq (.weight grams stable)

/-- GRADE (R60). -/
def execGrade (src : Node) (seq : Byte) (grade : Byte) (s : State) : Host.Outcome State Fault Refusal :=
  s.report src seq (.grade grade)

/-- AT_GATE (R65 to R69, R121). -/
def execAtGate (src : Node) (seq : Byte) (arrival : Byte) (s : State) : Host.Outcome State Fault Refusal :=
  s.report src seq (.atGate arrival)

/-- PASSED (R70, R71, R123, R124). -/
def execPassed (src : Node) (seq : Byte) (route : Byte) (ref : WireRef) (s : State) : Host.Outcome State Fault Refusal :=
  s.report src seq (.passed route ref)

/-- LOADED (R77). -/
def execLoaded (src : Node) (seq : Byte) (head : Byte) (ref : WireRef) (s : State) : Host.Outcome State Fault Refusal :=
  s.report src seq (.loaded head ref)

/-- PRESSURE (R81). -/
def execPressure (src : Node) (seq : Byte) (bar : Half) (s : State) : Host.Outcome State Fault Refusal :=
  s.report src seq (.pressure bar)

/-- EXPANSION (R81). -/
def execExpansion (src : Node) (seq : Byte) (value : Half) (s : State) : Host.Outcome State Fault Refusal :=
  s.report src seq (.expansion value)

/-- UNLOADED (R96). -/
def execUnloaded (src : Node) (seq : Byte) (s : State) : Host.Outcome State Fault Refusal :=
  s.report src seq (.unloaded)

/-- HEAD_FAULT (R97). -/
def execHeadFault (src : Node) (seq : Byte) (s : State) : Host.Outcome State Fault Refusal :=
  s.report src seq (.headFault)

/-- STAMP_TAG (R106 to R112). -/
def execStampTag (src : Node) (seq : Byte) (tag : TagRead) (s : State) : Host.Outcome State Fault Refusal :=
  s.report src seq (.tag tag)

/-- STAMP_DONE (R119, R120). -/
def execStampDone (src : Node) (seq : Byte) (ref : WireRef) (s : State) : Host.Outcome State Fault Refusal :=
  s.report src seq (.stampDone ref)

/-- STAMP_FAULT (R119, R120). -/
def execStampFault (src : Node) (seq : Byte) (ref : WireRef) (s : State) : Host.Outcome State Fault Refusal :=
  s.report src seq (.stampFault ref)

/-- JAM (R152 to R154). -/
def execJam (src : Node) (seq : Byte) (s : State) : Host.Outcome State Fault Refusal :=
  s.report src seq (.jam)

/-- CLEAR (R153, R154). -/
def execClear (src : Node) (seq : Byte) (s : State) : Host.Outcome State Fault Refusal :=
  s.report src seq (.clear)

end Sys2Proof.Machine
end

