-- ==== Sys2Proof/Machine/ExecRequests.lean ====
section
/-! DEFINITION. What the request commands do: each is one intact REQUEST frame from a node to the part's own
node, consumed and served as chapter 9 says (R129, R178; log 6). -/

namespace Sys2Proof.Machine

/-- R203: a request's payload. -/
def Request.payload (r : Request) : List Byte := r.kindCode :: r.body

/-- R129: an intact REQUEST frame to the part's own node is received. -/
def State.request (src : Node) (seq : Byte) (r : Request) (s : State) : Host.Outcome State Fault Refusal :=
  s.taken (State.receiveRequest s.ownNode src seq r.payload (requestRaw s.ownNode src seq r.payload))

/-- STATUS (R183). -/
def execStatus (src : Node) (seq : Byte) (part : Byte) (s : State) : Host.Outcome State Fault Refusal :=
  s.request src seq (.status part)

/-- SELECT (R181). -/
def execSelect (src : Node) (seq : Byte) (table index : Byte) (s : State) : Host.Outcome State Fault Refusal :=
  s.request src seq (.select table index)

/-- READ (R182). -/
def execRead (src : Node) (seq : Byte) (s : State) : Host.Outcome State Fault Refusal :=
  s.request src seq .read

/-- WRITE (R28, R182). -/
def execWrite (src : Node) (seq : Byte) (entry : List Byte) (s : State) : Host.Outcome State Fault Refusal :=
  s.request src seq (.write entry)

/-- TRACK_READ (R184). -/
def execTrackRead (src : Node) (seq : Byte) (index : Byte) (s : State) : Host.Outcome State Fault Refusal :=
  s.request src seq (.trackRead index)

/-- COUNTERS (R187). -/
def execCounters (src : Node) (seq : Byte) (group : Byte) (s : State) : Host.Outcome State Fault Refusal :=
  s.request src seq (.counters group)

/-- CLEAR_COUNTERS (R188). -/
def execClearCounters (src : Node) (seq : Byte) (s : State) : Host.Outcome State Fault Refusal :=
  s.request src seq .clearCounters

/-- SET_DATE (R45). -/
def execSetDate (src : Node) (seq : Byte) (year month : Byte) (s : State) : Host.Outcome State Fault Refusal :=
  s.request src seq (.setDate year month)

/-- SET_ROLE (R176). -/
def execSetRole (src : Node) (seq : Byte) (role : Byte) (s : State) : Host.Outcome State Fault Refusal :=
  s.request src seq (.setRole role)

/-- SET_LOOP (R141). -/
def execSetLoop (src : Node) (seq : Byte) (mode : Byte) (s : State) : Host.Outcome State Fault Refusal :=
  s.request src seq (.setLoop mode)

/-- RETEST (R101). -/
def execRetest (src : Node) (seq : Byte) (head : Byte) (s : State) : Host.Outcome State Fault Refusal :=
  s.request src seq (.head head 0)

/-- ABORT (R102). -/
def execAbort (src : Node) (seq : Byte) (head : Byte) (s : State) : Host.Outcome State Fault Refusal :=
  s.request src seq (.head head 1)

/-- DISABLE (R103). -/
def execDisable (src : Node) (seq : Byte) (head : Byte) (s : State) : Host.Outcome State Fault Refusal :=
  s.request src seq (.head head 2)

/-- ENABLE (R103). -/
def execEnable (src : Node) (seq : Byte) (head : Byte) (s : State) : Host.Outcome State Fault Refusal :=
  s.request src seq (.head head 3)

/-- TRACK_HOLD (R185). -/
def execTrackHold (src : Node) (seq : Byte) (ref : WireRef) (s : State) : Host.Outcome State Fault Refusal :=
  s.request src seq (.trackHold ref)

/-- HALT_MANUAL_ON (R158). -/
def execHaltManualOn (src : Node) (seq : Byte) (s : State) : Host.Outcome State Fault Refusal :=
  s.request src seq (.haltManual 1)

/-- HALT_MANUAL_OFF (R158). -/
def execHaltManualOff (src : Node) (seq : Byte) (s : State) : Host.Outcome State Fault Refusal :=
  s.request src seq (.haltManual 0)

/-- CLEAR_OVERRUN (R158). -/
def execClearOverrun (src : Node) (seq : Byte) (s : State) : Host.Outcome State Fault Refusal :=
  s.request src seq .clearOverrun

/-- PROVE_START (R142). -/
def execProveStart (src : Node) (seq : Byte) (s : State) : Host.Outcome State Fault Refusal :=
  s.request src seq (.prove 0)

/-- PROVE_STOP (R142). -/
def execProveStop (src : Node) (seq : Byte) (s : State) : Host.Outcome State Fault Refusal :=
  s.request src seq (.prove 1)

/-- PROVE_INSERT (R142). -/
def execProveInsert (src : Node) (seq : Byte) (s : State) : Host.Outcome State Fault Refusal :=
  s.request src seq (.prove 2)

/-- SET_PLANT_MARK (R46). -/
def execSetPlantMark (src : Node) (seq : Byte) (c1 c2 c3 c4 : Byte) (s : State) : Host.Outcome State Fault Refusal :=
  s.request src seq (.setPlantMark c1 c2 c3 c4)

/-- RESTART (R186, R197). -/
def execRestart (src : Node) (seq : Byte) (s : State) : Host.Outcome State Fault Refusal :=
  s.request src seq .restart

end Sys2Proof.Machine
end

