-- ==== Sys2Proof/Machine/ExecTimers.lean ====
section
/-! DEFINITION. What the expiries of the loader's, the heads' and the jam qualifiers' timers do (log 3). -/

namespace Sys2Proof.Machine

/-- LOAD_TIMER_EXPIRY (R78). -/
def execLoadTimerExpiry (s : State) : Host.Outcome State Fault Refusal := s.taken State.loadExpired

/-- RAMP_TIMER_EXPIRY (R83). -/
def execRampTimerExpiry (head : Fin 4) (s : State) : Host.Outcome State Fault Refusal := s.taken (State.rampExpired head.val)

/-- HOLD_TIMER_EXPIRY (R86). -/
def execHoldTimerExpiry (head : Fin 4) (s : State) : Host.Outcome State Fault Refusal := s.taken (State.holdExpired head.val)

/-- VENT_TIMER_EXPIRY (R89). -/
def execVentTimerExpiry (head : Fin 4) (s : State) : Host.Outcome State Fault Refusal := s.taken (State.ventExpired head.val)

/-- SETTLE_TIMER_EXPIRY (R90). -/
def execSettleTimerExpiry (head : Fin 4) (s : State) : Host.Outcome State Fault Refusal := s.taken (State.settleExpired head.val)

/-- MEASURE_TIMER_EXPIRY (R91). -/
def execMeasureTimerExpiry (head : Fin 4) (s : State) : Host.Outcome State Fault Refusal := s.taken (State.measureExpired head.val)

/-- JAM_QUALIFY_EXPIRY (R152). -/
def execJamQualifyExpiry (station : Fin 16) (s : State) : Host.Outcome State Fault Refusal := s.taken (State.qualifyExpired station.val)

/-- JAM_GAP_EXPIRY (R152 to R154). -/
def execJamGapExpiry (station : Fin 16) (s : State) : Host.Outcome State Fault Refusal := s.taken (State.gapExpired station.val)

/-- CLEAR_QUALIFY_EXPIRY (R154). -/
def execClearQualifyExpiry (station : Fin 16) (s : State) : Host.Outcome State Fault Refusal := s.taken (State.clearExpired station.val)

end Sys2Proof.Machine
end

