-- ==== Sys2Proof/Machine/Dispatch.lean ====
section
/-! DEFINITION. The dispatch: one arm per command. -/

namespace Sys2Proof.Machine

def exec (i : Instr) (s : State) : Host.Outcome State Fault Refusal :=
  match i with
  | .powerOnReset => Sys2Proof.Machine.execPowerOnReset s
  | .pinReset => Sys2Proof.Machine.execPinReset s
  | .resetRelease r => Sys2Proof.Machine.execResetRelease r s
  | .endOfLoading words => Sys2Proof.Machine.execEndOfLoading words s
  | .frameReceive path bytes => Sys2Proof.Machine.execFrameReceive path bytes s
  | .requestInLoading dst src seq payload => Sys2Proof.Machine.execRequestInLoading dst src seq payload s
  | .orderReturn path seq => Sys2Proof.Machine.execOrderReturn path seq s
  | .proveReturn path seq payload => Sys2Proof.Machine.execProveReturn path seq payload s
  | .transmitGap => Sys2Proof.Machine.execTransmitGap s
  | .ringReturnTimerExpiry place => Sys2Proof.Machine.execRingReturnTimerExpiry place s
  | .proveIntervalExpiry => Sys2Proof.Machine.execProveIntervalExpiry s
  | .beaconTimerExpiry => Sys2Proof.Machine.execBeaconTimerExpiry s
  | .partnerBeacon seq role occupancy unfit => Sys2Proof.Machine.execPartnerBeacon seq role occupancy unfit s
  | .partnerSeenTimerExpiry => Sys2Proof.Machine.execPartnerSeenTimerExpiry s
  | .partnerOrder dst seq payload => Sys2Proof.Machine.execPartnerOrder dst seq payload s
  | .expectationTimerExpiry place => Sys2Proof.Machine.execExpectationTimerExpiry place s
  | .inductionTag src seq tag => Sys2Proof.Machine.execInductionTag src seq tag s
  | .weight src seq grams stable => Sys2Proof.Machine.execWeight src seq grams stable s
  | .grade src seq grade => Sys2Proof.Machine.execGrade src seq grade s
  | .atGate src seq arrival => Sys2Proof.Machine.execAtGate src seq arrival s
  | .passed src seq route ref => Sys2Proof.Machine.execPassed src seq route ref s
  | .loaded src seq head ref => Sys2Proof.Machine.execLoaded src seq head ref s
  | .loadTimerExpiry => Sys2Proof.Machine.execLoadTimerExpiry s
  | .pressure src seq bar => Sys2Proof.Machine.execPressure src seq bar s
  | .expansion src seq value => Sys2Proof.Machine.execExpansion src seq value s
  | .rampTimerExpiry head => Sys2Proof.Machine.execRampTimerExpiry head s
  | .holdTimerExpiry head => Sys2Proof.Machine.execHoldTimerExpiry head s
  | .ventTimerExpiry head => Sys2Proof.Machine.execVentTimerExpiry head s
  | .settleTimerExpiry head => Sys2Proof.Machine.execSettleTimerExpiry head s
  | .measureTimerExpiry head => Sys2Proof.Machine.execMeasureTimerExpiry head s
  | .unloaded src seq => Sys2Proof.Machine.execUnloaded src seq s
  | .headFault src seq => Sys2Proof.Machine.execHeadFault src seq s
  | .stampTag src seq tag => Sys2Proof.Machine.execStampTag src seq tag s
  | .stampDone src seq ref => Sys2Proof.Machine.execStampDone src seq ref s
  | .stampFault src seq ref => Sys2Proof.Machine.execStampFault src seq ref s
  | .jam src seq => Sys2Proof.Machine.execJam src seq s
  | .clear src seq => Sys2Proof.Machine.execClear src seq s
  | .jamQualifyExpiry station => Sys2Proof.Machine.execJamQualifyExpiry station s
  | .jamGapExpiry station => Sys2Proof.Machine.execJamGapExpiry station s
  | .clearQualifyExpiry station => Sys2Proof.Machine.execClearQualifyExpiry station s
  | .status src seq part => Sys2Proof.Machine.execStatus src seq part s
  | .select src seq table index => Sys2Proof.Machine.execSelect src seq table index s
  | .read src seq => Sys2Proof.Machine.execRead src seq s
  | .write src seq entry => Sys2Proof.Machine.execWrite src seq entry s
  | .trackRead src seq index => Sys2Proof.Machine.execTrackRead src seq index s
  | .counters src seq group => Sys2Proof.Machine.execCounters src seq group s
  | .clearCounters src seq => Sys2Proof.Machine.execClearCounters src seq s
  | .setDate src seq year month => Sys2Proof.Machine.execSetDate src seq year month s
  | .setRole src seq role => Sys2Proof.Machine.execSetRole src seq role s
  | .setLoop src seq mode => Sys2Proof.Machine.execSetLoop src seq mode s
  | .retest src seq head => Sys2Proof.Machine.execRetest src seq head s
  | .abort src seq head => Sys2Proof.Machine.execAbort src seq head s
  | .disable src seq head => Sys2Proof.Machine.execDisable src seq head s
  | .enable src seq head => Sys2Proof.Machine.execEnable src seq head s
  | .trackHold src seq ref => Sys2Proof.Machine.execTrackHold src seq ref s
  | .haltManualOn src seq => Sys2Proof.Machine.execHaltManualOn src seq s
  | .haltManualOff src seq => Sys2Proof.Machine.execHaltManualOff src seq s
  | .clearOverrun src seq => Sys2Proof.Machine.execClearOverrun src seq s
  | .proveStart src seq => Sys2Proof.Machine.execProveStart src seq s
  | .proveStop src seq => Sys2Proof.Machine.execProveStop src seq s
  | .proveInsert src seq => Sys2Proof.Machine.execProveInsert src seq s
  | .setPlantMark src seq c1 c2 c3 c4 => Sys2Proof.Machine.execSetPlantMark src seq c1 c2 c3 c4 s
  | .restart src seq => Sys2Proof.Machine.execRestart src seq s
  | .supplyLoss => Sys2Proof.Machine.execSupplyLoss s

end Sys2Proof.Machine
end

