-- ==== Sys2Proof/Machine/Tick.lean ====
section
/-! DEFINITION. One millisecond of the part's timebase: every running timer counts down, and each that ends
puts its expiry command into the queue (log 2). The timebase has no row in the table. -/

namespace Sys2Proof.Machine

/-- A running timer with at most one millisecond left ends in this millisecond. -/
def ends (t : Option Nat) : Bool := t.any fun n => n ≤ 1

/-- A running timer one millisecond later. -/
def elapse (t : Option Nat) : Option Nat := t.map fun n => n - 1

/-- The places of a list's ended timers, oldest first; each is the place held when its command runs, since
the commands before it remove their elements. -/
def endedPlaces : Nat → List Nat → List Nat
  | _, [] => []
  | k, t :: ts => if t ≤ 1 then k :: endedPlaces k ts else endedPlaces (k + 1) ts

/-- The expiry command of a head's step timer. -/
def StepKind.expiry (n : Fin 4) : StepKind → Instr
  | .ramp => .rampTimerExpiry n
  | .hold => .holdTimerExpiry n
  | .vent => .ventTimerExpiry n
  | .settle => .settleTimerExpiry n
  | .measure => .measureTimerExpiry n

/-- The expiry command of head `n`, if its timer ends. -/
def State.headExpiry (s : State) (n : Fin 4) : List Instr :=
  match (s.head n.val).timer with
  | some t => if t.left ≤ 1 then [t.kind.expiry n] else []
  | none => []

/-- The expiry commands of a jam qualifier. -/
def State.jamExpiries (s : State) (e : Fin 16) : List Instr :=
  let q := s.jam e.val
  (if ends q.qualify then [.jamQualifyExpiry e] else []) ++
    (if ends q.clear then [.clearQualifyExpiry e] else []) ++
    (if ends q.gap then [.jamGapExpiry e] else [])

/-- The expiry commands of this millisecond, in a fixed order (log 2). -/
def State.expiries (s : State) : List Instr :=
  (endedPlaces 0 (s.rpt.outstanding.map Outstanding.timer)).map Instr.ringReturnTimerExpiry ++
    (endedPlaces 0 (s.rol.expectations.map Expectation.timer)).map Instr.expectationTimerExpiry ++
    (if ends s.rol.beaconTimer then [.beaconTimerExpiry] else []) ++
    (if ends s.rol.partnerSeen then [.partnerSeenTimerExpiry] else []) ++
    (if ends s.tbc.loader.timer then [.loadTimerExpiry] else []) ++
    [0, 1, 2, 3].flatMap s.headExpiry ++
    (List.finRange 16).flatMap s.jamExpiries ++
    (if ends s.rpt.proving.interval then [.proveIntervalExpiry] else [])

/-- A head record one millisecond later. -/
def HeadRecord.elapse (h : HeadRecord) : HeadRecord :=
  { h with timer := h.timer.map fun t => { t with left := t.left - 1 } }

/-- A jam qualifier one millisecond later. -/
def JamQualifier.elapse (q : JamQualifier) : JamQualifier :=
  { q with qualify := Machine.elapse q.qualify, gap := Machine.elapse q.gap, clear := Machine.elapse q.clear }

/-- Every running timer one millisecond later. -/
def State.elapse (s : State) : State :=
  let s := s.modRpt fun r =>
    { r with outstanding := r.outstanding.map fun o => { o with timer := o.timer - 1 },
             proving := { r.proving with interval := Machine.elapse r.proving.interval } }
  let s := s.modRol fun r =>
    { r with expectations := r.expectations.map fun e => { e with timer := e.timer - 1 },
             beaconTimer := Machine.elapse r.beaconTimer, partnerSeen := Machine.elapse r.partnerSeen }
  let s := s.modTbc fun t =>
    { heads := t.heads.map HeadRecord.elapse,
      loader := { t.loader with timer := Machine.elapse t.loader.timer } }
  s.modSmn fun m => { m with jams := m.jams.map JamQualifier.elapse }

/-- The queue replaced. -/
def State.setPending (q : List Instr) (s : State) : State := { s with pending := q }

/-- One millisecond passes with no command waiting: a frame under way has been sent (log 4), and has returned
if it went to the local loop (log 34), the timers count down, and the expiry commands join the queue. -/
def State.tick (s : State) : State :=
  let s := s.event State.completeSending
  s.elapse.setPending (s.pending ++ s.expiries)

end Sys2Proof.Machine
end

