-- ==== Sys2Proof/Safety.lean ====
section
/-! DEFINITION. The properties of a state that the part keeps, and the premises under which a report, a
request or a timer is taken. Claims use these terms. -/

namespace Sys2Proof.Machine

/-! ## Ranges -/

/-- R146: a stream record within its ranges. -/
abbrev StreamRecord.inRange (r : StreamRecord) : Prop := r.run ≤ 8 ∧ r.history.length ≤ 32

/-- R85: a head's expansion window holds at most 4 values. -/
abbrev HeadRecord.inRange (h : HeadRecord) : Prop := h.window.length ≤ 4

/-- R143, R144: ring proving within its ranges. -/
abbrev Proving.inRange (p : Proving) : Prop :=
  p.list.length ≤ 16 ∧ p.loss ≤ 255 ∧ p.window.length ≤ 16 ∧ p.run ≤ 4 ∧ (p.checker = .seeking → p.run ≤ 3)

/-- R45: a date within its ranges. -/
abbrev Date.inRange (d : Date) : Prop := d.year ≤ 99 ∧ 1 ≤ d.month ∧ d.month ≤ 12

/-- R45, R46, R181, R187: the management agent's values within their ranges. -/
abbrev Management.inRange (m : Management) : Prop :=
  m.counters.length = 22 ∧ (∀ c ∈ m.counters, c ≤ counterMax) ∧ m.index ≤ m.table.size ∧
    (∀ d ∈ m.date, d.inRange) ∧
    ∀ o ∈ m.override, o.length = 4 ∧ ∀ c ∈ o, c ≤ 63

/-- R26: the loaded tables have their numbers of entries. -/
abbrev Tables.shaped (t : Tables) : Prop :=
  t.station.length = 16 ∧ t.cls.length = 64 ∧ t.owner.length = 128 ∧ t.recallList.length = 32 ∧
    t.glyph.length = 64 ∧ t.template.length = 16

/-! ## Legal values -/

/-- R29: a station entry within its ranges; the head number is 0 for any role other than HEAD. -/
abbrev StationEntry.legal (e : StationEntry) : Prop :=
  e.node.toNat ≤ 62 ∧ e.head ≤ 3 ∧ (e.role ≠ .head → e.head = 0)

/-- R36: class limits within their ranges. -/
abbrev ClassLimits.legal (l : ClassLimits) : Prop :=
  (1 ≤ l.interval ∧ l.interval ≤ 240) ∧ l.life ≤ 80 ∧ (10 ≤ l.pt ∧ l.pt ≤ 700) ∧ l.margin ≤ 200 ∧
    (1 ≤ l.tolerance ∧ l.tolerance ≤ 50) ∧ (10 ≤ l.hold ∧ l.hold ≤ 600) ∧
    (1 ≤ l.permLimit ∧ l.permLimit ≤ 500) ∧ l.elasticLimit ≤ 30000 ∧ l.tareLoss ≤ 500 ∧
    l.tareGain ≤ 5000 ∧ l.maxRetests ≤ 3 ∧ l.ventThreshold ≤ 20 ∧ (5 ≤ l.settle ∧ l.settle ≤ 120) ∧
    l.strike ≤ 3

/-- R38: an owner entry within its ranges. -/
abbrev OwnerEntry.legal (e : OwnerEntry) : Prop := e.advance ≤ 24 ∧ e.passTemplate ≤ 15

/-- R40: a recall entry within its ranges; the owner or class of an entry that takes any is held as 0. -/
abbrev RecallEntry.legal (e : RecallEntry) : Prop :=
  e.cls ≤ 63 ∧ e.first < 2 ^ 32 ∧ e.last < 2 ^ 32 ∧ (e.ownerAny = true → e.owner = 0) ∧
    (e.classAny = true → e.cls = 0)

/-- R42: a glyph entry within its ranges. -/
abbrev GlyphEntry.legal (e : GlyphEntry) : Prop := e.width ≤ 6 ∧ e.columns.length = 6

/-- R43: a template element within its ranges. -/
def Element.inRange : Element → Bool
  | .glyph c => c ≤ 63
  | .space n => 1 ≤ n && n ≤ 8
  | .month | .year | .plant | .pressure | .serialTail => true

/-- R43: a legal template element. -/
abbrev Element.legal (e : Element) : Prop := e.inRange = true

/-- R195: configuration values within their ranges, the dependent ones settled. -/
abbrev Configuration.legal (c : Configuration) : Prop :=
  (c.own.toNat ≤ 62 ∧ c.partner.toNat ≤ 62 ∧ c.manager.toNat ≤ 62 ∧ c.recorder.toNat ≤ 62) ∧
    (20 ≤ c.beaconPeriod ∧ c.beaconPeriod ≤ 1000) ∧ (200 ≤ c.takeoverTime ∧ c.takeoverTime ≤ 10000) ∧
    3 * c.beaconPeriod ≤ c.takeoverTime ∧ (5 ≤ c.ringReturn ∧ c.ringReturn ≤ 1000) ∧
    (5 ≤ c.loadTimeout ∧ c.loadTimeout ≤ 600) ∧ (10 ≤ c.rampTimeout ∧ c.rampTimeout ≤ 600) ∧
    (10 ≤ c.ventTimeout ∧ c.ventTimeout ≤ 600) ∧ (5 ≤ c.measureTimeout ∧ c.measureTimeout ≤ 300) ∧
    (2 ≤ c.iqHigh ∧ c.iqHigh ≤ 24) ∧ c.iqLow < c.iqHigh ∧
    (100 ≤ c.jamQualify ∧ c.jamQualify ≤ 30000) ∧ (50 ≤ c.jamGap ∧ c.jamGap ≤ 5000) ∧
    (100 ≤ c.clearQualify ∧ c.clearQualify ≤ 30000) ∧ c.plantMark.length = 4 ∧
    (∀ m ∈ c.plantMark, m ≤ 63) ∧ c.condemn ≤ 15 ∧ (5 ≤ c.proveInterval ∧ c.proveInterval ≤ 1000)

/-! ## Invariants -/

/-- R132 to R134, R137, R143, R167: no queue or list of the ring port or the role unit holds more than its
capacity. -/
abbrev State.queuesBounded (s : State) : Prop :=
  s.rpt.orders.length ≤ 24 ∧ s.rpt.replies.length ≤ 4 ∧ s.rpt.notices.length ≤ 24 ∧
    s.rpt.outstanding.length ≤ 16 ∧ s.rol.expectations.length ≤ 16 ∧ s.rpt.proving.list.length ≤ 16

/-- R164, R167: only an ACTIVE part holds orders, sent or unsent; only a SHADOW part holds expectations; a part
in LOADING holds no role (R163). -/
abbrev State.rolesApart (s : State) : Prop :=
  (s.cfl.loading = true → s.rol.role = none) ∧
  (s.isRole .active = false → s.rpt.orders = [] ∧ s.rpt.outstanding = []) ∧
    (s.isRole .shadow = false → s.rol.expectations = [])

/-- R145, R192: the relay is closed exactly while the supply is absent or a reset is asserted. -/
abbrev State.relayRight (s : State) : Prop :=
  s.pins.relayClosed = (!s.pins.supply || s.pins.internal || s.pins.pin)

/-- R45, R46, R85, R143, R144, R146, R171, R181, R187: the counts and held values lie within their ranges. -/
abbrev State.inRange (s : State) : Prop :=
  (∀ r ∈ s.smn.streams, r.inRange) ∧ (∀ h ∈ s.tbc.heads, h.inRange) ∧ s.rpt.proving.inRange ∧
    s.mga.inRange ∧ s.rol.divergence ≤ 255

/-- R1, R26, R75, R146, R151: every table of the part has its number of entries. -/
abbrev State.shaped (s : State) : Prop :=
  s.trk.table.length = 80 ∧ s.tbc.heads.length = 4 ∧ s.smn.streams.length = 16 ∧
    s.smn.jams.length = 16 ∧ s.tables.shaped

/-- R75, R100: a head without a cylinder, out of use or ready. -/
abbrev HeadRecord.idle (h : HeadRecord) : Prop :=
  h = HeadRecord.reset ∨ h = { HeadRecord.reset with state := .disabled }

/-- R25, R74, R104, R125, R162, R163: the tracking state of a part that does not track. -/
abbrev State.inert (s : State) : Prop :=
  (∀ e ∈ s.trk.table, e.place = .free) ∧ s.trk.iq = [] ∧ s.trk.gateA = none ∧ s.trk.fq = [] ∧
    s.trk.xq = [] ∧ s.trk.gq = [] ∧ s.trk.closing = [] ∧ s.trk.claims = [] ∧
    s.scr.gate = GateRecord.reset ∧ s.fcu = FinishCell.reset ∧ (∀ h ∈ s.tbc.heads, h.idle) ∧
    s.tbc.loader = Loader.reset ∧ (∀ r ∈ s.smn.streams, r = StreamRecord.reset) ∧
    (∀ q ∈ s.smn.jams, q = JamQualifier.reset) ∧ s.lsc = LineStop.reset ∧
    s.rol.beaconTimer = none ∧ s.rol.partnerSeen = none

/-- R163, R195: a part in TRANSPARENT role, or holding no role, tracks nothing; a part in LOADING holds no
role; the configuration lies within its ranges. -/
abbrev State.tracksOnlyInRole (s : State) : Prop :=
  (s.cfl.loading = true → s.rol.role = none) ∧ s.config.legal ∧ (s.tracking = false → s.inert)

/-- R30: no two valid station entries share a node or a position-bearing role. -/
abbrev State.stationsUnique (s : State) : Prop :=
  ∀ i < 16, ∀ j < 16, i ≠ j → (s.station i).valid = true → (s.station j).valid = true →
    (s.station i).clashes (s.station j) = false

/-! ## The track unit -/

/-- R5: the locations of entries in use. -/
def Location.inUse : List Location :=
  [.intake, .gateA, .feed, .head 0, .head 1, .head 2, .head 3, .finish, .stamp, .gateB, .closing]

/-- R5: what the collection of a location holds, oldest first. -/
def State.holds (s : State) : Location → List Nat
  | .free => []
  | .intake => s.trk.iq
  | .gateA => s.trk.gateA.toList
  | .feed => s.trk.fq
  | .head n => ((s.tbc.heads[n]?).bind HeadRecord.cylinder).toList
  | .finish => s.trk.xq
  | .stamp => match s.fcu.slot.content with
    | .entry i => [i]
    | _ => []
  | .gateB => s.trk.gq.filterMap Item.index
  | .closing => s.trk.closing

/-- R5: each collection holds an entry at most once, and only entries whose location names it; each entry in
use stands in the collection that its location names. -/
abbrev State.placed (s : State) : Prop :=
  (∀ l ∈ Location.inUse, (s.holds l).Nodup ∧ ∀ i ∈ s.holds l, i < 80 ∧ (s.entry i).place = l) ∧
    ∀ i < 80, (s.entry i).place ≠ .free → i ∈ s.holds (s.entry i).place

/-- R5, R11: IQ holds at most 24 entries; in FQ, XQ and GQ the items held and the places reserved together do
not pass the capacity. -/
abbrev State.withinCapacity (s : State) : Prop :=
  s.trk.iq.length ≤ 24 ∧ s.trk.fq.length + s.reserved .fq ≤ 16 ∧ s.trk.xq.length + s.reserved .xq ≤ 24 ∧
    s.trk.gq.length + s.reserved .gq ≤ 4

/-- R13: the claims of the orders that wait for a place: gate A's deferred ROUTE, the RELEASE of each head
whose stage is CLAIMED, the stamp slot's STAMP. -/
def State.deferrals (s : State) : List Claim :=
  (match s.scr.gate.state, s.scr.gate.item, s.scr.gate.ordered.bind RouteA.queue with
    | .deferred, some (.entry i), some q => [⟨q, .gateA i⟩]
    | _, _, _ => []) ++
  ([0, 1, 2, 3].flatMap fun n => match (s.head n).release, (s.head n).cylinder with
    | .claimed, some i => [⟨.xq, .head n i⟩]
    | _, _ => []) ++
  (if s.fcu.slot.stage = .claimed then [⟨.gq, .stampSlot⟩] else [])

/-- R64 to R67, R70: gate A serves the head of IQ while its ROUTE waits for a place, and the entry of the
gate A slot, with its place reserved, once the ROUTE has been sent. -/
def State.gateAServes (s : State) : Bool :=
  match s.scr.gate.state, s.scr.gate.item, s.scr.gate.ordered with
  | .idle, _, _ => s.trk.gateA.isNone
  | .deferred, some (.entry i), some route =>
    s.trk.gateA.isNone && s.trk.iq.head? == some i && route.queue.isSome
  | .pending, some (.entry i), some route =>
    s.trk.gateA == some i && (route.queue.isNone || (s.record i).reservation == route.queue)
  | _, _, _ => false

/-- R121: gate B serves the head of GQ. -/
def State.gateBServes (s : State) : Bool :=
  s.fcu.gate.state != .pending || (s.fcu.gate.item.isSome && s.fcu.gate.item == s.trk.gq.head?)

/-- R105, R114: an empty slot has no stage; once an entry's STAMP has been sent, its GQ place is reserved. -/
def State.slotServes (s : State) : Bool :=
  match s.fcu.slot.content, s.fcu.slot.stage with
  | .empty, stage => stage == .none
  | .entry i, .sent => (s.record i).reservation == some .gq
  | _, _ => true

/-- R75: the head state in which a step timer runs. -/
def StepKind.during : StepKind → HeadState
  | .ramp => .pressurizing
  | .hold => .holding
  | .vent => .venting
  | .settle => .settling
  | .measure => .measuring

/-- R75, R77, R87, R95, R101: a head holds a cylinder except in EMPTY, DISABLED and FAULTED; its step timer is
that of its state; RELEASE waits or has been sent only in DONE; a retest is pending only in VENTING; the
outcome is fixed, with no retest pending, only in VENTING and DONE. -/
def HeadRecord.sound (h : HeadRecord) : Bool :=
  h.cylinder.isNone == h.state.vacant && h.timer.all (fun t => t.kind.during == h.state) &&
    (h.release == .none || h.state == .done) && (h.retest == .none || h.state == .venting) &&
    (!h.fixed || (h.retest == .none && (h.state == .venting || h.state == .done)))

/-- R76, R95: the head that the loader serves is ASSIGNED, and the place of a cylinder whose RELEASE has been
sent is reserved in XQ. -/
abbrev State.bankServes (s : State) : Prop :=
  (∀ h ∈ s.tbc.heads, h.sound = true) ∧ (∀ n ∈ s.tbc.loader.serving, (s.head n).state = .assigned) ∧
    ∀ n < 4, (s.head n).release = .sent → ∀ i ∈ (s.head n).cylinder, (s.record i).reservation = some .xq

/-- R5, R11 to R13: the track unit is sound: every entry in use is in exactly the collection that its location
names, no queue is fuller than its capacity, and the claims are those of the orders that wait; what the
gates, the heads and the stamp slot serve stands where they hold it. -/
abbrev State.tracked (s : State) : Prop :=
  (s.trk.table.length = 80 ∧ s.tbc.heads.length = 4) ∧ s.placed ∧ s.withinCapacity ∧
    s.trk.claims.Perm s.deferrals ∧ s.gateAServes = true ∧ s.gateBServes = true ∧ s.slotServes = true ∧
    s.bankServes

/-! ## The ranges of records -/

/-- R3, R48: an identity within its ranges. -/
abbrev Identity.inRange (i : Identity) : Prop :=
  i.serial < 2 ^ 32 ∧ i.cls ≤ 63 ∧ i.lastYear ≤ 99 ∧ (1 ≤ i.lastMonth ∧ i.lastMonth ≤ 12) ∧
    (100 ≤ i.tare ∧ i.tare ≤ 20000) ∧ i.mfgYear ≤ 99

/-- R3, R93: a hydro result within its ranges; the test date is absent until a verdict is reached; a PASS has
a total expansion above 0. -/
abbrev Hydro.inRange (h : Hydro) : Prop :=
  h.et ≤ 30000 ∧ h.ep ≤ 30000 ∧ h.ratio ≤ 1000 ∧ h.peak ≤ 1000 ∧ h.retests ≤ 3 ∧
    (∀ d ∈ h.date, d.inRange) ∧ (h.verdict = .none → h.date = none) ∧ (h.verdict = .pass → 0 < h.et)

/-- R3: a weight is at most 250000 g. -/
def Weight.inRange : Weight → Bool
  | .measured g _ => g ≤ 250000
  | _ => true

/-- R3: a grade is at most 7. -/
def Grade.inRange : Grade → Bool
  | .graded g => g ≤ 7
  | _ => true

/-- R3: an entry's record within its ranges. -/
abbrev TrackRecord.inRange (r : TrackRecord) : Prop :=
  (∀ i ∈ r.identity, i.inRange) ∧ (∀ l ∈ r.classSnap, l.legal) ∧
    (∀ o ∈ r.ownerSnap, o.advance ≤ 24 ∧ o.passTemplate ≤ 15) ∧ r.weight.inRange = true ∧
    r.grade.inRange = true ∧ ∀ h ∈ r.hydro, h.inRange

/-- R29, R36, R38, R40, R42, R43: every entry of the loaded tables within its ranges. -/
abbrev Tables.legal (t : Tables) : Prop :=
  (∀ e ∈ t.station, e.legal) ∧ (∀ e ∈ t.cls, e.limits.legal) ∧ (∀ e ∈ t.owner, e.legal) ∧
    (∀ e ∈ t.recallList, e.legal) ∧ (∀ e ∈ t.glyph, e.legal) ∧
    ∀ es ∈ t.template, es.length ≤ 12 ∧ ∀ x ∈ es, x.legal

/-- The hydro result of entry `i`, as TBC creates it where it is absent (R4). -/
def State.hydro (i : Nat) (s : State) : Hydro := (s.record i).hydro.getD Hydro.fresh

/-- R77, R79, R86, R93, R94: a cylinder has no verdict before it reaches a head and while its head's outcome
is open; its total expansion is above 0 once the hold has succeeded; one that waits for an automatic retest has
used at most 2. -/
abbrev State.verdictsOpen (s : State) : Prop :=
  (∀ i ∈ s.trk.iq ++ s.trk.gateA.toList ++ s.trk.fq, (s.hydro i).verdict = .none) ∧
    ∀ n < 4, ∀ i ∈ (s.head n).cylinder,
      ((s.head n).fixed = false → (s.hydro i).verdict = .none) ∧
      ((s.head n).state = .settling ∨ (s.head n).state = .measuring ∨
        ((s.head n).state = .venting ∧ (s.head n).fixed = false ∧ (s.head n).retest = .none) →
          0 < (s.hydro i).et) ∧
      ((s.head n).retest = .automatic → (s.hydro i).retests ≤ 2)

/-- R3, R85, R93, R159, R166: the records, the tables and the samples within their ranges, the last IQ
occupancy reported at most 24, the partner's occupancy at most 80. -/
abbrev State.recordsInRange (s : State) : Prop :=
  (∀ e ∈ s.trk.table, e.record.inRange) ∧ s.tables.legal ∧ (∀ h ∈ s.tbc.heads, ∀ v ∈ h.window, v ≤ 30000) ∧
    s.verdictsOpen ∧ s.lsc.lastIq ≤ 24 ∧ ∀ o ∈ s.rol.partner.occupancy, o ≤ 80

/-! ## Premises -/

/-- Where a report frame `raw` from node `src` with sequence `seq` goes: the sender's station entry, and the
state in which the block that the report is for acts on it, after the frame has been repeated and its
sequence checked. None where the report is not processed, its sender is unmapped, or it is stale (R31, R129
to R131, R147). -/
def State.delivered (src : Node) (seq : Byte) (raw : List Byte) (s : State) : Option (Nat × State) :=
  let s := s.setOut []
  if s.seesForeign src && !s.cfl.loading && s.tracking then
    match s.stationOf src with
    | none => none
    | some e => ((s.repeatFrame raw).checkSequence e seq).map fun u => (e, u)
  else none

/-- The report `r` from node `src` with sequence `seq` reaches the block it is for as a report of station
entry `e`, in state `u`. -/
abbrev State.hears (src : Node) (seq : Byte) (r : Report) (e : Nat) (s u : State) : Prop :=
  s.delivered src seq (reportRaw src seq r) = some (e, u)

/-- The part is on the ring, past LOADING, in ACTIVE or SHADOW role, and node `src` is that of station entry
`e` (R31, R129, R130). -/
abbrev State.maps (src : Node) (e : Nat) (s : State) : Prop :=
  s.onRing = true ∧ s.cfl.loading = false ∧ s.tracking = true ∧ src ≠ s.ownNode ∧ s.stationOf src = some e

/-- The state after a frame was repeated and its sequence accepted without a gap (R131, R147). -/
def State.heard (e : Nat) (seq : Byte) (raw : List Byte) (s : State) : State :=
  ((s.setOut []).repeatFrame raw).modStream e (StreamRecord.accept seq false)

/-- A request from node `src` to the part's own node is served: the part is on the ring, past LOADING, the
frame is not its own and a reply has room (R128, R129). -/
abbrev State.hearsRequest (src : Node) (s : State) : Prop :=
  s.onRing = true ∧ s.cfl.loading = false ∧ src ≠ s.ownNode ∧ s.replyRoom = true

/-- The same for a request of the manager node (R178, R179). -/
abbrev State.hearsManager (src : Node) (s : State) : Prop := s.hearsRequest src ∧ src = s.config.manager

/-- R32: the block that a station's role names takes the report; JAM and CLEAR are taken from any station. -/
def StationRole.takes : StationRole → Report → Bool
  | _, .jam | _, .clear => true
  | .induction, .tag _ | .weigh, .weight .. | .inspect, .grade _ | .gateA, .atGate _ | .gateA, .passed ..
  | .loader, .loaded .. | .head, .pressure _ | .head, .expansion _ | .head, .unloaded | .head, .headFault
  | .stamp, .tag _ | .stamp, .stampDone _ | .stamp, .stampFault _ | .gateB, .atGate _ | .gateB, .passed .. => true
  | _, _ => false

/-- R136: no order can be taken at a gap: another role than ACTIVE, no order waiting, or 16 outstanding. -/
abbrev State.noOrderReady (s : State) : Prop :=
  s.isRole .active = false ∨ s.rpt.orders = [] ∨ 16 ≤ s.rpt.outstanding.length

/-- R126, R127, R141: a frame of the part's own as it goes on its line, with the emit counter's value. -/
def State.framed (dst : Node) (kind : Byte) (payload : List Byte) (s : State) : Emission :=
  let bytes := (Frame.mk dst s.ownNode kind s.rpt.emitCount payload).bytes
  match s.rpt.loop with
  | .normal => .ring bytes
  | .local => .loop bytes

/-- R180: a request answered: the reply joins the queue of the state given. -/
def State.answered (src : Node) (kind seq : Byte) (code : ReplyCode) (data : List Byte) (s : State) : State :=
  s.pushReply { dst := src, kind := kind, seq := seq, code := code, data := data }

end Sys2Proof.Machine
end

