-- ==== Sys2Proof/Certificates/Slice0/Obligations.lean ====
section
/-! DEFINITION. The statements for the provers. A statement about a report is about the state `u` in which
the report reaches its block (`State.hears`): the frame repeated and its sequence checked; what that state
is, for an in-order frame, after a gap and for a stale frame, is stated under "The delivery of a report". -/

open Sys2Proof Sys2Proof.Machine

/-! ## The machine -/

/-- A step runs the command at the front of the queue on the state with the queue's rest, whatever the
command and the state. The queue of waiting commands is the model's own (log 29). -/
def Obligations.StepRunsTheFrontCommand : Prop :=
  ∀ (s : State) (c : Instr) (rest : List Instr), s.pending = c :: rest → step s = exec c (s.setPending rest)

/-- Every command leads to a next state, in every state and with every operand, and leaves the queue as it
stands: the part has a rule for every event, and no command stops it. -/
def Obligations.EveryCommandIsTaken : Prop :=
  ∀ (s : State) (c : Instr), ∃ t, exec c s = .next t ∧ t.pending = s.pending

/-- With no command waiting, a step is one millisecond of the timebase (the model's choice, log 2). The frame
under way and the frames held behind it have gone out, and a frame of the local loop has returned (log 34).
Every running timer has one millisecond less, each at its place. The expiry commands of the timers that end
wait, in the fixed order of log 2: the outstanding orders and the expectations, each named by the place it has
when its command runs, the beacon, partner-seen and load timers, the heads, the jam qualifiers and the prove
interval. Nothing else changes. -/
def Obligations.IdleStepIsOneMillisecond : Prop :=
  ∀ s : State, s.pending = [] →
    let u := (s.setOut []).completeSending
    let less := fun (t : Option Nat) => t.map (· - 1)
    let ended := fun (t : Option Nat) => t.any fun n => decide (n ≤ 1)
    let places := fun (ts : List Nat) =>
      ((List.range ts.length).filter fun k => decide (ts.getD k 0 ≤ 1)).mapIdx fun before k => k - before
    (s.rpt.sending = none → u = { s with out := [] }) ∧
    (∀ e, s.rpt.sending = some e →
      u.out = e :: s.rpt.repeatBuf.map .ring ∧ u.rpt.sending = none ∧ u.rpt.repeatBuf = [] ∧
      ((∀ bytes, e ≠ .loop bytes) → u = { s with
        out := e :: s.rpt.repeatBuf.map .ring
        rpt := { s.rpt with sending := none, repeatBuf := [] } })) ∧
    step s = .next { u with
      rpt := { u.rpt with
        outstanding := u.rpt.outstanding.map fun o => ⟨o.seq, o.dst, o.timer - 1⟩
        proving := { u.rpt.proving with interval := less u.rpt.proving.interval } }
      rol := { u.rol with
        expectations := u.rol.expectations.map fun e => ⟨e.dst, e.order, e.timer - 1⟩
        beaconTimer := less u.rol.beaconTimer
        partnerSeen := less u.rol.partnerSeen }
      tbc := {
        heads := u.tbc.heads.map fun h => { h with timer := h.timer.map fun t => ⟨t.kind, t.left - 1⟩ }
        loader := { u.tbc.loader with timer := less u.tbc.loader.timer } }
      smn := { u.smn with jams := u.smn.jams.map fun q =>
        ⟨q.state, less q.qualify, less q.gap, less q.clear⟩ }
      pending :=
        (places (u.rpt.outstanding.map fun o => o.timer)).map Instr.ringReturnTimerExpiry ++
        (places (u.rol.expectations.map fun e => e.timer)).map Instr.expectationTimerExpiry ++
        (if ended u.rol.beaconTimer then [Instr.beaconTimerExpiry] else []) ++
        (if ended u.rol.partnerSeen then [Instr.partnerSeenTimerExpiry] else []) ++
        (if ended u.tbc.loader.timer then [Instr.loadTimerExpiry] else []) ++
        (([0, 1, 2, 3] : List (Fin 4)).flatMap fun n => match (u.head n.val).timer with
          | none => []
          | some t => if 1 < t.left then [] else match t.kind with
            | .ramp => [Instr.rampTimerExpiry n]
            | .hold => [Instr.holdTimerExpiry n]
            | .vent => [Instr.ventTimerExpiry n]
            | .settle => [Instr.settleTimerExpiry n]
            | .measure => [Instr.measureTimerExpiry n]) ++
        ((List.finRange 16).flatMap fun e =>
          (if ended (u.jam e.val).qualify then [Instr.jamQualifyExpiry e] else []) ++
          (if ended (u.jam e.val).clear then [Instr.clearQualifyExpiry e] else []) ++
          (if ended (u.jam e.val).gap then [Instr.jamGapExpiry e] else [])) ++
        (if ended u.rpt.proving.interval then [Instr.proveIntervalExpiry] else []) }

/-! ## Invariants kept by every step -/

/-- R132 to R134, R137, R143, R167: no step lets one of the six queues and lists of the ring port and the role
unit (orders, replies, notices, outstanding orders, expectations, prove frames) hold more than its capacity. -/
def Obligations.StepKeepsTheQueuesBounded : Prop :=
  ∀ s t : State, s.queuesBounded → step s = .next t → t.queuesBounded

/-- R164, R167: after any step of a state of which it held, only an ACTIVE part holds orders, waiting or
outstanding, and only a SHADOW part holds expectations. -/
def Obligations.StepKeepsOrdersToTheRole : Prop :=
  ∀ s t : State, s.rolesApart → step s = .next t → t.rolesApart

/-- R145, R192: every step keeps the relay closed exactly while the supply is absent or a reset is asserted. -/
def Obligations.StepKeepsTheRelayRight : Prop :=
  ∀ s t : State, s.relayRight → step s = .next t → t.relayRight

/-- R3, R29, R36, R38, R40, R42, R43, R45, R46, R48, R85, R93, R143, R144, R146, R159, R166, R171, R181, R187:
every step keeps the counts and the held values within their ranges; and, where the track unit is sound, the
entry records, the loaded tables, the samples, the last IQ occupancy reported and the partner's occupancy: a
weight at most 250000 g, a grade at most 7, expansions at most 30000, a ratio and a peak at most 1000, at most 3
retests, and for every PASS verdict a total expansion above 0. -/
def Obligations.StepKeepsTheRanges : Prop :=
  ∀ s t : State, step s = .next t →
    (s.inRange → t.inRange) ∧ (s.tracked → s.inRange → s.recordsInRange → t.recordsInRange)

/-- R1, R26, R75, R146, R151: every step keeps every table at its number of entries. -/
def Obligations.StepKeepsTheTablesWhole : Prop :=
  ∀ s t : State, s.shaped → step s = .next t → t.shaped

/-- R25, R74, R104, R125, R162, R163: every step keeps the tracking state of a part that does not track at
rest: no entry in use, empty collections, idle gates, heads without cylinders, NEW streams, IDLE qualifiers,
an empty halt set and the feed GO. -/
def Obligations.StepTracksOnlyInARole : Prop :=
  ∀ s t : State, s.tracksOnlyInRole → step s = .next t → t.tracksOnlyInRole

/-- R30: no step lets two valid station entries share a node or a position-bearing role. -/
def Obligations.StepKeepsStationRolesUnique : Prop :=
  ∀ s t : State, s.stationsUnique → step s = .next t → t.stationsUnique

/-- R5 to R10, R11 to R14, R64, R75, R76, R95, R105, R114: every step keeps the track unit sound: each entry in
use stands in the one collection that its location names, IQ holds at most 24, in FQ, XQ and GQ the items held
and the places reserved do not pass 16, 24 and 4, and the claims are those of gate A's deferred ROUTE, the
RELEASEs and the STAMP that wait for a place, so at most one on FQ, one on GQ and five on XQ. -/
def Obligations.StepKeepsTheTrackUnitSound : Prop :=
  (∀ s t : State, s.tracked → step s = .next t → t.tracked) ∧
    ∀ s : State, s.tracked →
      (∀ i < 80, (s.entry i).place ≠ .free → ∀ l, i ∈ s.holds l ↔ l = (s.entry i).place) ∧
      (∀ i < 80, (s.entry i).place = .free → ∀ l, i ∉ s.holds l) ∧
      s.trk.claims.countP (fun c => c.queue == .fq) ≤ 1 ∧ s.trk.claims.countP (fun c => c.queue == .gq) ≤ 1 ∧
      s.trk.claims.countP (fun c => c.queue == .xq) ≤ 5

/-- R3, R23, R26, R64, R75, R76, R105, R126, R146, R151, R156, R159, R166, R181, R192: what a power-on reset
leaves, of each kind of state: all entries FREE at generation 0, the tables at their reset content, idle
gates, EMPTY heads, an empty slot, empty queues, an emit counter of 0, counters of 0, no date, NEW streams,
IDLE qualifiers, no cause, feed GO, no role, LOADING, the relay open. The state meets every invariant. -/
def Obligations.ResetLeavesThePartEmpty : Prop :=
  (State.reset.queuesBounded ∧ State.reset.rolesApart ∧ State.reset.relayRight ∧ State.reset.inRange ∧
    State.reset.shaped ∧ State.reset.tracksOnlyInRole ∧ State.reset.stationsUnique ∧ State.reset.tracked ∧
    State.reset.recordsInRange) ∧
  (∀ i < 80, State.reset.entry i = ⟨0, .free, TrackRecord.fresh⟩) ∧
    State.reset.trk.iq = [] ∧ State.reset.trk.fq = [] ∧ State.reset.trk.xq = [] ∧ State.reset.trk.gq = [] ∧
    State.reset.trk.closing = [] ∧ State.reset.trk.claims = [] ∧ State.reset.trk.gateA = none ∧
    State.reset.scr.gate.state = .idle ∧ State.reset.fcu.gate.state = .idle ∧
    State.reset.fcu.slot.content = .empty ∧
    (∀ n < 4, (State.reset.head n).state = .empty ∧ (State.reset.head n).cylinder = none) ∧
    State.reset.tbc.loader.serving = none ∧
    (∀ e < 16, (State.reset.station e).valid = false ∧ (State.reset.stream e).state = .new ∧
      (State.reset.jam e).state = .idle) ∧
    (∀ c ∈ State.reset.tables.cls, c.valid = false) ∧ (∀ o ∈ State.reset.tables.owner, o.valid = false) ∧
    (∀ r ∈ State.reset.tables.recallList, r.valid = false) ∧ (∀ g ∈ State.reset.tables.glyph, g.width = 0) ∧
    (∀ t ∈ State.reset.tables.template, t = []) ∧
    State.reset.lsc.halt.isEmpty = true ∧ State.reset.lsc.feed = .go ∧ State.reset.lsc.lastIq = 0 ∧
    State.reset.rpt.orders = [] ∧ State.reset.rpt.replies = [] ∧ State.reset.rpt.notices = [] ∧
    State.reset.rpt.outstanding = [] ∧ State.reset.rpt.beaconDue = false ∧ State.reset.rpt.emitCount = 0 ∧
    State.reset.rpt.proving.on = false ∧ State.reset.rpt.loop = .normal ∧
    State.reset.rol.role = none ∧ State.reset.rol.partner.presence = .unknown ∧
    State.reset.rol.expectations = [] ∧ State.reset.rol.divergence = 0 ∧ State.reset.rol.unfit = false ∧
    (∀ c, State.reset.counter c = 0) ∧ State.reset.mga.date = none ∧ State.reset.mga.override = none ∧
    State.reset.mga.table = .station ∧ State.reset.mga.index = 0 ∧
    State.reset.cfl.loading = true ∧ State.reset.cfl.cause = .powerOn ∧ State.reset.pins.relayClosed = false

/-! ## Encodings -/

/-- R199, R201, R202: every report is read back from its payload, with every field at every value it can carry.
Every order of the part has the payload laid out for its kind, a reference absent being index 255 and
generation 0, and the order kind, the reference and the content are read back from it; a column of a STAMP
takes a byte. -/
def Obligations.ReportsAreReadAsLaidOut : Prop :=
  (∀ r : Report, parseReport r.payload = some r) ∧
    (let hi := fun n : Nat => byte (n / 256)
      let ref := fun (r : TrackRef) => if byte r.index = 255 then none else some (WireRef.mk (byte r.index) r.gen)
      let laid := fun (o : Order) (kind : Byte) (r : Option WireRef) (content payload : List Byte) =>
        o.payload = payload ∧ parseOrder payload = some ⟨kind, r, content⟩ ∧ o.wire = ⟨kind, r, content⟩
      (∀ (route : RouteA) (r : TrackRef) (a : Byte),
        let code : Byte := match route with
          | .bank => 0
          | .returnBack => 1
          | .bypass => 2
        laid (.routeA route r a) 1 (ref r) [code, a] [1, code, byte r.index, r.gen, a]) ∧
      (∀ (route : RouteB) (a : Byte),
        let code : Byte := match route with
          | .fill => 0
          | .scrap => 1
          | .bench => 2
        (∀ r, laid (.routeB route (some r) a) 1 (ref r) [code, a] [1, code, byte r.index, r.gen, a]) ∧
          laid (.routeB route none a) 1 none [code, a] [1, code, 255, 0, a]) ∧
      (∀ (n : Nat) (r : TrackRef), laid (.assign n r) 2 (ref r) [byte n] [2, byte n, byte r.index, r.gen]) ∧
      (∀ (r : TrackRef) (pt hold pmax : Nat),
        let content := [hi pt, byte pt, hi hold, byte hold, hi pmax, byte pmax]
        laid (.test r pt hold pmax) 3 (ref r) content (3 :: byte r.index :: r.gen :: content)) ∧
      (∀ r : TrackRef, laid (.vent r) 4 (ref r) [] [4, byte r.index, r.gen] ∧
        laid (.release r) 5 (ref r) [] [5, byte r.index, r.gen]) ∧
      (∀ (i n strike : Nat) (cols : List Column), cols.length ≤ 40 →
        let content := byte i :: byte n :: byte strike :: byte cols.length ::
          cols.map fun c => BitVec.ofNat 8 c.toNat
        (∀ r, laid (.stamp (some r) i n strike cols) 6 (ref r) content (6 :: byte r.index :: r.gen :: content)) ∧
          laid (.stamp none i n strike cols) 6 none content (6 :: 255 :: 0 :: content)) ∧
      laid .halt 7 none [] [7] ∧ laid .resume 8 none [] [8] ∧ laid .feedHold 9 none [] [9] ∧
      laid .feedGo 10 none [] [10])

/-- R127, R198, R200: every frame with a payload of at most 48 bytes is read back from its bytes: its header
fields, its payload and its check agree. One whose check bytes are not those of its header and payload does
not pass its check. The check starts from all ones; each bit, the most significant of a byte first, shifts the
register by one place, and where it differs from the bit shifted out the register is exclusive-ored with
0x1021; so the check of a run of bytes followed by its own check, high byte first, is 0. -/
def Obligations.FramesAreReadAsLaidOut : Prop :=
  (∀ f : Frame, f.payload.length ≤ 48 → parseFrame f.bytes = some f) ∧
    (∀ (f : Frame) (c : Half), c ≠ frameCheck f.body → parseFrame (f.body ++ half c) = none) ∧
    frameCheck [] = 0xFFFF#16 ∧
    (∀ (bytes : List Byte) (b : Byte),
      frameCheck (bytes ++ [b]) = [7, 6, 5, 4, 3, 2, 1, 0].foldl (fun (r : Half) k =>
        if r.getLsbD 15 = b.getLsbD k then r <<< 1 else (r <<< 1) ^^^ 0x1021#16) (frameCheck bytes)) ∧
    ∀ bytes : List Byte,
      frameCheck (bytes ++ [(frameCheck bytes).extractLsb' 8 8, (frameCheck bytes).extractLsb' 0 8]) = 0

/-- R128, R129, R198 to R203: the bytes of a frame received from the ring do what the typed command of the
table that the frame stands for does, in every state: a report, a partner's order, a partner's beacon, a
request, and a returned ORDER or PROVE of the part's own. That a typed command is one intact frame is the
model's reading (log 6). -/
def Obligations.FrameReceiveIsTheTypedCommand : Prop :=
  ∀ s : State,
    (∀ (src : Node) (seq : Byte) (r : Report),
      exec (.frameReceive .ring (reportRaw src seq r)) s = s.report src seq r) ∧
    (∀ (dst : Node) (seq : Byte) (p : List Byte), p.length ≤ 48 → s.config.partner ≠ s.ownNode →
      exec (.frameReceive .ring (orderRaw dst s.config.partner seq p)) s = exec (.partnerOrder dst seq p) s) ∧
    (∀ seq role occupancy unfit : Byte,
      exec (.frameReceive .ring (beaconRaw s.config.partner seq role occupancy unfit)) s =
        exec (.partnerBeacon seq role occupancy unfit) s) ∧
    (∀ (dst src : Node) (seq : Byte) (p : List Byte), p.length ≤ 48 →
      exec (.frameReceive .ring (requestRaw dst src seq p)) s = exec (.requestInLoading dst src seq p) s) ∧
    (∀ (src : Node) (seq : Byte) (r : Request), r.payload.length ≤ 48 →
      exec (.frameReceive .ring (requestRaw s.ownNode src seq r.payload)) s = s.request src seq r) ∧
    (∀ (path : RxPath) (dst : Node) (seq : Byte) (p : List Byte), p.length ≤ 48 →
      exec (.frameReceive path (Frame.mk dst s.ownNode kindOrder seq p).bytes) s =
        exec (.orderReturn path seq) s) ∧
    (∀ (path : RxPath) (dst : Node) (seq : Byte) (p : List Byte), p.length ≤ 48 →
      exec (.frameReceive path (Frame.mk dst s.ownNode kindProve seq p).bytes) s =
        exec (.proveReturn path seq p) s)

/-- R28, R29, R36, R38, R40, R42, R43, R207: a table entry that lies within its ranges is read back from the
bytes that READ gives for it, with nothing clamped, whatever its fields. -/
def Obligations.TableEntriesAreReadAsLaidOut : Prop :=
  (∀ e : StationEntry, e.legal → parseStation e.bytes = some (e, false)) ∧
    (∀ e : ClassEntry, e.limits.legal → parseClass e.bytes = some (e, false)) ∧
    (∀ e : OwnerEntry, e.legal → parseOwner e.bytes = some (e, false)) ∧
    (∀ e : RecallEntry, e.legal → parseRecall e.bytes = some (e, false)) ∧
    (∀ e : GlyphEntry, e.legal → parseGlyph e.bytes = some (e, false)) ∧
    (∀ es : List Element, es.length ≤ 12 → (∀ x ∈ es, x.legal) →
      parseTemplate (templateBytes es) = some (es, false))

/-- R28, R29, R36, R38, R40, R42, R43, R178, R207: what a WRITE stores. An entry has its table's length. Each
number goes to the nearer end of its range, and the entry counts as clamped exactly where one did; a code that
names nothing, of a role, a jam mode, a material or an element, gives no entry. The numbers of a field that
another field makes ignored count too (log 16), and so do the elements beyond a template's twelfth, which are
checked as the others are (log 17). Whatever the bytes, the entry stored lies within its ranges. -/
def Obligations.StoredEntriesAreLegal : Prop :=
  let near := fun lo hi n : Nat => if n < lo then lo else if hi < n then hi else n
  let out := fun lo hi n : Nat => decide (n < lo ∨ hi < n)
  let word := fun a b : Byte => a.toNat * 256 + b.toNat
  (∀ e : List Byte,
    (entryFits .station e = true ↔ e.length = 3) ∧ (entryFits .cls e = true ↔ e.length = 21) ∧
      (entryFits .owner e = true ↔ e.length = 7) ∧ (entryFits .recallList e = true ↔ e.length = 12) ∧
      (entryFits .glyph e = true ↔ e.length = 7) ∧
      (entryFits .template e = true ↔ ∃ n rest, e = n :: rest ∧ n.toNat ≤ 23 ∧ rest.length = 2 * n.toNat)) ∧
  (∀ b node head : Byte,
    let role := b.toNat / 8 % 16
    let jam := b.toNat / 2 % 4
    (8 < role ∨ jam = 3 → parseStation [b, node, head] = none) ∧
    ∀ r m, ([.induction, .weigh, .inspect, .gateA, .loader, .head, .stamp, .gateB, .other] :
        List StationRole)[role]? = some r → ([.off, .notify, .auto] : List JamMode)[jam]? = some m →
      parseStation [b, node, head] = some (
        { valid := b.getLsbD 7, node := BitVec.ofNat 6 (near 0 62 node.toNat), role := r,
          head := if r = .head then near 0 3 head.toNat else 0, jam := m },
        out 0 62 node.toNat || out 0 3 head.toNat)) ∧
  (∀ b interval life pt1 pt0 margin tolerance hold1 hold0 perm1 perm0 elastic1 elastic0 loss1 loss0 gain1 gain0
      retests threshold settle strike : Byte,
    let entry := [b, interval, life, pt1, pt0, margin, tolerance, hold1, hold0, perm1, perm0, elastic1, elastic0,
      loss1, loss0, gain1, gain0, retests, threshold, settle, strike]
    let material := b.toNat / 32 % 4
    (material = 3 → parseClass entry = none) ∧
    ∀ m, ([.steel, .aluminium, .composite] : List Material)[material]? = some m →
      parseClass entry = some (
        { valid := b.getLsbD 7
          limits := {
            material := m, interval := near 1 240 interval.toNat, life := near 0 80 life.toNat
            pt := near 10 700 (word pt1 pt0), margin := near 0 200 margin.toNat
            tolerance := near 1 50 tolerance.toNat, hold := near 10 600 (word hold1 hold0)
            permLimit := near 1 500 (word perm1 perm0), elasticLimit := near 0 30000 (word elastic1 elastic0)
            tareLoss := near 0 500 (word loss1 loss0), tareGain := near 0 5000 (word gain1 gain0)
            maxRetests := near 0 3 retests.toNat, ventThreshold := near 0 20 threshold.toNat
            settle := near 5 120 settle.toNat, strike := near 0 3 strike.toNat } },
        out 1 240 interval.toNat || out 0 80 life.toNat || out 10 700 (word pt1 pt0) || out 0 200 margin.toNat ||
          out 1 50 tolerance.toNat || out 10 600 (word hold1 hold0) || out 1 500 (word perm1 perm0) ||
          out 0 30000 (word elastic1 elastic0) || out 0 500 (word loss1 loss0) || out 0 5000 (word gain1 gain0) ||
          out 0 3 retests.toNat || out 0 20 threshold.toNat || out 5 120 settle.toNat || out 0 3 strike.toNat)) ∧
  (∀ b code1 code0 mask1 mask0 advance template : Byte,
    parseOwner [b, code1, code0, mask1, mask0, advance, template] = some (
      { valid := b.getLsbD 7, code := BitVec.ofNat 16 (word code1 code0), mask := BitVec.ofNat 16 (word mask1 mask0)
        state := if b.getLsbD 6 then .suspended else .active
        advance := near 0 24 advance.toNat, passTemplate := near 0 15 template.toNat },
      out 0 24 advance.toNat || out 0 15 template.toNat)) ∧
  (∀ b owner1 owner0 cls f3 f2 f1 f0 l3 l2 l1 l0 : Byte,
    parseRecall [b, owner1, owner0, cls, f3, f2, f1, f0, l3, l2, l1, l0] = some (
      { valid := b.getLsbD 7, ownerAny := b.getLsbD 6
        owner := if b.getLsbD 6 then 0 else BitVec.ofNat 16 (word owner1 owner0)
        classAny := b.getLsbD 5, cls := if b.getLsbD 5 then 0 else near 0 63 cls.toNat
        first := word f3 f2 * 65536 + word f1 f0, last := word l3 l2 * 65536 + word l1 l0
        action := if b.getLsbD 4 then .scrap else .hold },
      out 0 63 cls.toNat)) ∧
  (∀ (width : Byte) (columns : List Byte),
    parseGlyph (width :: columns) = some (
      { width := near 0 6 width.toNat, columns := columns.map fun c => BitVec.ofNat 7 c.toNat },
      out 0 6 width.toNat)) ∧
  (∀ (count : Byte) (elements : List (Byte × Byte)),
    let read := fun q : Byte × Byte =>
      ([(.glyph (near 0 63 q.2.toNat), out 0 63 q.2.toNat), (.space (near 1 8 q.2.toNat), out 1 8 q.2.toNat),
        (.month, false), (.year, false), (.plant, false), (.pressure, false), (.serialTail, false)] :
          List (Element × Bool))[q.1.toNat]?
    let entry := count :: elements.flatMap fun q => [q.1, q.2]
    ((∃ q ∈ elements, 6 < q.1.toNat) → parseTemplate entry = none) ∧
    ∀ es : List (Element × Bool), elements.map read = es.map some →
      parseTemplate entry = some ((es.map Prod.fst).take 12, es.any Prod.snd || decide (12 < count.toNat))) ∧
  (∀ b e c, parseStation b = some (e, c) → e.legal) ∧
    (∀ b e c, parseClass b = some (e, c) → e.limits.legal) ∧
    (∀ b e c, parseOwner b = some (e, c) → e.legal) ∧
    (∀ b e c, parseRecall b = some (e, c) → e.legal) ∧
    (∀ b e c, entryFits .glyph b = true → parseGlyph b = some (e, c) → e.legal) ∧
    (∀ b es c, parseTemplate b = some (es, c) → es.length ≤ 12 ∧ ∀ x ∈ es, x.legal)

/-- R194, R195: which bits of which word give each configuration value, each number clamped to its range, the
low watermark below the high one and the takeover time at three beacon periods or more; a code that names
nothing gives the default. Words without the signature give the default column. Whatever words are read,
every value lies within its range. -/
def Obligations.ConfigurationLiesInItsRanges : Prop :=
  ∀ words : List Half,
    let w := fun k : Nat => (words.getD k 0xFFFF#16).toNat
    let within := fun lo hi n : Nat => if n < lo then lo else if hi < n then hi else n
    let node := fun n : Nat => BitVec.ofNat 6 (within 0 62 n)
    let beacon := within 20 1000 (w 3)
    let high := within 2 24 (w 10 / 256)
    (configurationOf words).legal ∧
    (w 0 / 4096 = 9 → configurationOf words = decodeConfiguration words) ∧
    (w 0 / 4096 ≠ 9 → configurationOf words = {
      startRole := .transparent, autoTakeover := false, unknownOwner := .hold, own := 62, partner := 61,
      manager := 1, recorder := 1, beaconPeriod := 100, takeoverTime := 1000, ringReturn := 50,
      loadTimeout := 60, rampTimeout := 120, ventTimeout := 60, measureTimeout := 30, iqHigh := 20,
      iqLow := 16, jamQualify := 2000, jamGap := 500, clearQualify := 3000, plantMark := [63, 63, 63, 63],
      condemn := 0, proveInterval := 20 }) ∧
    decodeConfiguration words = {
      startRole := if w 0 / 1024 % 4 = 1 then .active else if w 0 / 1024 % 4 = 2 then .shadow else .transparent
      autoTakeover := decide (w 0 / 512 % 2 = 1)
      unknownOwner := if w 0 / 128 % 4 = 1 then .note else if w 0 / 128 % 4 = 2 then .returnBack else .hold
      own := node (w 1 / 256), partner := node (w 1 % 256)
      manager := node (w 2 / 256), recorder := node (w 2 % 256)
      beaconPeriod := beacon
      takeoverTime := if within 200 10000 (w 4) < 3 * beacon then 3 * beacon else within 200 10000 (w 4)
      ringReturn := within 5 1000 (w 5), loadTimeout := within 5 600 (w 6)
      rampTimeout := within 10 600 (w 7), ventTimeout := within 10 600 (w 8)
      measureTimeout := within 5 300 (w 9)
      iqHigh := high, iqLow := within 0 (high - 1) (w 10 % 256)
      jamQualify := within 100 30000 (w 11), jamGap := within 50 5000 (w 12)
      clearQualify := within 100 30000 (w 13)
      plantMark := [within 0 63 (w 14 / 256), within 0 63 (w 14 % 256),
        within 0 63 (w 15 / 256), within 0 63 (w 15 % 256)]
      condemn := within 0 15 (w 16 % 256)
      proveInterval := within 5 1000 (w 17) }

/-! ## Resets, the supply, start-up -/

/-- R145, R191 to R193: the internal power-on reset, the reset input and the loss of the supply put every
block at its power-on values and close the relay, from every state (that a loss leaves the power-on values
standing is the model's choice, log 12). The release of the one reset still asserted, with the supply
present, opens the relay, writes the cause, enters LOADING with no role, and sends the read command of word
0; that the configuration then stands at the defaults is the model's choice (log 13). The release of one of two
resets leaves the part held, and the cause is that of the one released last; a release of a reset that is not
asserted does nothing (log 14). -/
def Obligations.ResetsHoldThePartUntilReleased : Prop :=
  ∀ s : State,
    exec .powerOnReset s = .next (State.powerOn
      { supply := true, internal := true, pin := s.pins.pin, relayClosed := true, memSelect := false }
      [] s.free s.pending) ∧
    exec .pinReset s = .next (State.powerOn
      { supply := s.pins.supply, internal := s.pins.internal, pin := true, relayClosed := true,
        memSelect := false } [] s.free s.pending) ∧
    exec .supplyLoss s = .next (State.powerOn
      { supply := false, internal := false, pin := s.pins.pin, relayClosed := true, memSelect := false }
      [] s.free s.pending) ∧
    (s.pins.supply = true → s.pins.internal = true → s.pins.pin = false →
      exec (.resetRelease .internal) s = .next
      { State.powerOn { supply := true, internal := false, pin := false, relayClosed := false,
                        memSelect := true }
          [.memory [true, true, false, false, false, false, false, false]] s.free s.pending with
        cfl := { loading := true, cause := .powerOn, defaulted := true, config := Configuration.default } }) ∧
    (s.pins.supply = true → s.pins.pin = true → s.pins.internal = false → exec (.resetRelease .pin) s = .next
      { State.powerOn { supply := true, internal := false, pin := false, relayClosed := false,
                        memSelect := true }
          [.memory [true, true, false, false, false, false, false, false]] s.free s.pending with
        cfl := { loading := true, cause := .pin, defaulted := true, config := Configuration.default } }) ∧
    (s.pins.internal = true → s.pins.pin = true ∨ s.pins.supply = false →
      exec (.resetRelease .internal) s = .next { s with out := [], pins := { s.pins with internal := false } }) ∧
    (s.pins.pin = true → s.pins.internal = true ∨ s.pins.supply = false →
      exec (.resetRelease .pin) s = .next { s with out := [], pins := { s.pins with pin := false } }) ∧
    (s.pins.internal = false → exec (.resetRelease .internal) s = .next { s with out := [] }) ∧
    (s.pins.pin = false → exec (.resetRelease .pin) s = .next { s with out := [] })

/-- R194 to R196: the end of LOADING deselects the memory, hands over the configuration the words give, and
enters the start role with its timers; words without the signature give the defaults, TRANSPARENT role and a
CONFIG_DEFAULTED notice to node 1. Outside LOADING the event has no effect. -/
def Obligations.EndOfLoadingEntersTheStartRole : Prop :=
  ∀ (s : State) (words : List Half),
    (s.cfl.loading = true → (configWord words 0).extractLsb' 12 4 = 0b1001#4 →
      let c := decodeConfiguration words
      exec (.endOfLoading words) s = .next { s with
        out := []
        pins := { s.pins with memSelect := false }
        cfl := { s.cfl with loading := false, defaulted := false, config := c }
        rol := { s.rol with
          role := some c.startRole
          beaconTimer := if c.startRole = .transparent then s.rol.beaconTimer else some c.beaconPeriod
          partnerSeen := if c.startRole = .shadow then some c.takeoverTime else s.rol.partnerSeen }
        rpt := if c.startRole = .active then
            { s.rpt with proving := { s.rpt.proving with
                on := false, interval := none, due := false, insertion := false, list := [], checker := .off } }
          else s.rpt }) ∧
    (s.cfl.loading = true → (configWord words 0).extractLsb' 12 4 ≠ 0b1001#4 → s.rpt.notices.length < 24 →
      exec (.endOfLoading words) s = .next { s with
        out := []
        pins := { s.pins with memSelect := false }
        cfl := { s.cfl with loading := false, defaulted := true, config := Configuration.default }
        rol := { s.rol with role := some .transparent }
        rpt := { s.rpt with notices := s.rpt.notices ++ [.event 1 .configDefaulted 0] } }) ∧
    (s.cfl.loading = false → exec (.endOfLoading words) s = .next { s with out := [] })

/-! ## The ring port -/

/-- R131, R141: a repeated frame goes straight out while the part sends no frame of its own on the ring; while
it does, the frame is held, and once more bytes have arrived than the part's frame has, that frame has been
sent whole and the held frames follow it in arrival order. The grain of one received frame is the model's
choice (log 4). A frame of the part's own that has been sent goes out with the held frames behind it, and one
sent to the local loop is then received on the loop, in the same event (log 34). -/
def Obligations.RepeatedFramesWaitForAnInsertion : Prop :=
  ∀ (s : State) (raw : List Byte),
    ((∀ own, s.rpt.sending ≠ some (.ring own)) → s.repeatFrame raw = { s with out := s.out ++ [.ring raw] }) ∧
    (∀ own, s.rpt.sending = some (.ring own) →
      totalBytes s.rpt.repeatBuf + raw.length ≤ own.length →
      s.repeatFrame raw = { s with rpt := { s.rpt with repeatBuf := s.rpt.repeatBuf ++ [raw] } }) ∧
    (∀ own, s.rpt.sending = some (.ring own) →
      own.length < totalBytes s.rpt.repeatBuf + raw.length →
      s.repeatFrame raw = { s with
        out := s.out ++ [.ring own] ++ s.rpt.repeatBuf.map .ring ++ [.ring raw]
        rpt := { s.rpt with sending := none, repeatBuf := [] } }) ∧
    (s.rpt.sending = none → s.completeSending = s) ∧
    (∀ own, s.rpt.sending = some (.ring own) → s.completeSending = { s with
      out := s.out ++ .ring own :: s.rpt.repeatBuf.map .ring
      rpt := { s.rpt with sending := none, repeatBuf := [] } }) ∧
    (∀ own, s.rpt.sending = some (.loop own) →
      let sent : State := { s with
        out := s.out ++ .loop own :: s.rpt.repeatBuf.map .ring
        rpt := { s.rpt with sending := none, repeatBuf := [] } }
      ∃ t, exec (.frameReceive .loop own) sent = .next t ∧ s.completeSending = { t with out := sent.out })

/-- R128 to R130, R193: a frame of another node that is too long, fails its check, or is of an unknown kind is
repeated and counted; a REPLY, a NOTICE or a PROVE of another node is repeated; so is an ORDER or a BEACON of
another node than the partner, and one of the partner in LOADING and in loop mode LOCAL, with no effect; a frame
of the part's own is removed, counted if it is too long or fails its check, and of its other kinds than ORDER
and PROVE nothing is taken. That the part's own frames count in LOADING too, and all frames in loop mode LOCAL,
is the model's reading (log 19). -/
def Obligations.ReceivedFramesAreTested : Prop :=
  ∀ (s : State) (raw : List Byte), s.onRing = true →
    (rawSource raw ≠ some s.ownNode →
      (overLength raw = true →
        exec (.frameReceive .ring raw) s = .next (((s.setOut []).repeatFrame raw).count .longFrame 1)) ∧
      (overLength raw = false → parseFrame raw = none →
        exec (.frameReceive .ring raw) s = .next (((s.setOut []).repeatFrame raw).count .badCheck 1)) ∧
      (∀ f, overLength raw = false → parseFrame raw = some f → f.kind = 0 ∨ 7 < f.kind.toNat →
        exec (.frameReceive .ring raw) s = .next (((s.setOut []).repeatFrame raw).count .unknownKind 1)) ∧
      (∀ f, overLength raw = false → parseFrame raw = some f → f.kind = 4 ∨ f.kind = 5 ∨ f.kind = 7 →
        exec (.frameReceive .ring raw) s = .next ((s.setOut []).repeatFrame raw)) ∧
      (∀ f, overLength raw = false → parseFrame raw = some f → f.kind = 2 ∨ f.kind = 6 →
        f.src ≠ s.config.partner ∨ s.cfl.loading = true ∨ s.rpt.loop = .local →
        exec (.frameReceive .ring raw) s = .next ((s.setOut []).repeatFrame raw))) ∧
    (rawSource raw = some s.ownNode → ∀ path,
      (overLength raw = true → exec (.frameReceive path raw) s = .next ((s.setOut []).count .longFrame 1)) ∧
      (overLength raw = false → parseFrame raw = none →
        exec (.frameReceive path raw) s = .next ((s.setOut []).count .badCheck 1)) ∧
      (∀ f, overLength raw = false → parseFrame raw = some f → f.kind ≠ 2 → f.kind ≠ 7 →
        exec (.frameReceive path raw) s = .next (s.setOut [])))

/-- R129, R178, R193: a request to the part is discarded and counted when 4 replies wait. In LOADING one to
any single node, from any other than node 62, is answered NOT_READY, whatever it asks. Past LOADING one to
the part's own node is answered BAD_REQUEST for an unknown kind, then REFUSED_SOURCE for a manager's kind
from another node, then BAD_REQUEST for a form that fits no layout; nothing else changes. One to another node
is repeated. The kind echoed to a request without a kind byte is left free (log 10). -/
def Obligations.RequestsAreCheckedBeforeTheyAreServed : Prop :=
  ∀ (s : State) (dst src : Node) (seq : Byte) (payload : List Byte),
    s.onRing = true → src ≠ s.ownNode →
    let u := s.setOut []
    let refused := fun (code : ReplyCode) =>
      (∀ kind body, payload = kind :: body →
        exec (.requestInLoading dst src seq payload) s = .next (u.answered src kind seq code [])) ∧
      (payload = [] → exec (.requestInLoading dst src seq payload) s =
        .next (State.answered src (Config.missingKind s.free) seq code [] (u.setFree (s.free + 1))))
    let mine := if s.cfl.loading then dst ≠ 63 else dst = s.config.own
    (mine → 4 ≤ s.rpt.replies.length →
      exec (.requestInLoading dst src seq payload) s = .next (u.count .requestsDropped 1)) ∧
    (mine → s.rpt.replies.length < 4 →
      (s.cfl.loading = true → refused .notReady) ∧
      (s.cfl.loading = false →
        (payload = [] → refused .badRequest) ∧
        (∀ kind body, payload = kind :: body →
          (kind = 0 ∨ 17 < kind.toNat → refused .badRequest) ∧
          (kind ∈ [4, 7, 8, 9, 10, 11, 12, 13, 14, 15, 16, 17] → src ≠ s.config.manager →
            refused .refusedSource) ∧
          (1 ≤ kind.toNat → kind.toNat ≤ 17 → src = s.config.manager → parseRequest kind body = none →
            refused .badRequest) ∧
          (kind ∈ [1, 2, 3, 5, 6] → parseRequest kind body = none → refused .badRequest)))) ∧
    (¬ mine →
      exec (.requestInLoading dst src seq payload) s =
        .next (u.repeatFrame (requestRaw dst src seq payload)))

/-- R130, R138, R141: an ORDER of the part's own that returns takes the oldest outstanding order with its
sequence number off the list, whatever stands before it, and nothing else; with no such order, and in
LOADING, and from the ring in loop mode LOCAL, it is removed without effect. -/
def Obligations.ReturnedOrdersLeaveTheList : Prop :=
  ∀ (s : State) (path : RxPath) (seq : Byte), s.onRing = true →
    (∀ older o newer, s.cfl.loading = false → (path = .ring → s.rpt.loop = .normal) →
      s.rpt.outstanding = older ++ o :: newer → o.seq = seq → (∀ x ∈ older, x.seq ≠ seq) →
      exec (.orderReturn path seq) s =
        .next { s with out := [], rpt := { s.rpt with outstanding := older ++ newer } }) ∧
    ((∀ x ∈ s.rpt.outstanding, x.seq ≠ seq) → exec (.orderReturn path seq) s = .next { s with out := [] }) ∧
    (s.cfl.loading = true → exec (.orderReturn path seq) s = .next { s with out := [] }) ∧
    (path = .ring → s.rpt.loop = .local → exec (.orderReturn path seq) s = .next { s with out := [] })

/-- R130, R141, R143, R144: a PROVE frame of the part's own that returns takes its list element and the older ones
off the list, its gap being those older ones and the pending loss, and its errors the bits that differ from the
generator's output at its stream position. A bad frame in LOCKED adds both to the counters. The checker counts
good frames, locks at the fourth, and seeks again at four bad frames in the window of sixteen. A frame not frame
not on the list has no effect; in LOADING, and from the ring in loop mode LOCAL, it is removed without effect.
The error count of a payload of another length than 32 bytes is left free (log 11). -/
def Obligations.ReturnedProveFramesAreChecked : Prop :=
  ∀ (s : State) (path : RxPath) (seq : Byte) (payload : List Byte),
    s.onRing = true →
    (∀ older x newer, s.cfl.loading = false → (path = .ring → s.rpt.loop = .normal) →
      s.rpt.proving.list = older ++ x :: newer → x.seq = seq → (∀ y ∈ older, y.seq ≠ seq) →
      let p := s.rpt.proving
      let expected := proveSkips (x.position - p.expectedPos) p.expected
      let gap := older.length + p.loss
      let errors := if payload.length = 32 then bitErrors payload (bytesOfBits (proveBits 256 expected).1)
        else Config.oddProveErrors s.free payload
      let taken := { p with list := newer, loss := 0, expectedPos := x.position + 1,
                            expected := proveSkips (x.position + 1 - p.expectedPos) p.expected }
      let good := gap = 0 ∧ errors = 0
      ∃ t, exec (.proveReturn path seq payload) s = .next t ∧
        (p.checker = .off → t.rpt.proving = taken) ∧
        (p.checker = .seeking → ¬ good → t.rpt.proving = { taken with run := 0 }) ∧
        (p.checker = .seeking → good → p.run ≠ 3 → t.rpt.proving = { taken with run := p.run + 1 }) ∧
        (p.checker = .seeking → good → p.run = 3 →
          t.rpt.proving = { taken with checker := .locked, run := 4, window := [] }) ∧
        (p.checker = .locked →
          let w := (p.window ++ [decide good]).drop ((p.window ++ [decide good]).length - 16)
          t.rpt.proving = if 4 ≤ w.count false then { taken with checker := .seeking, run := 0, window := w }
            else { taken with window := w }) ∧
        t.mga = (if p.checker = .locked then (s.count .proveBitErrors errors).count .proveFramesLost gap
          else s).mga ∧
        t.out = [] ∧ { t with out := s.out, rpt := s.rpt, mga := s.mga, free := s.free } = s ∧
        { t.rpt with proving := p } = s.rpt) ∧
    ((∀ y ∈ s.rpt.proving.list, y.seq ≠ seq) →
      exec (.proveReturn path seq payload) s = .next { s with out := [] }) ∧
    (s.cfl.loading = true → exec (.proveReturn path seq payload) s = .next { s with out := [] }) ∧
    (path = .ring → s.rpt.loop = .local → exec (.proveReturn path seq payload) s = .next { s with out := [] })

/-- R126, R131, R134 to R137, R141 to R143, R164: at a transmit gap the frame under way is finished (log 5; one
of the local loop returns, log 34) and the first ready source gives a frame, which takes the emit counter's
value: an order (in ACTIVE role, while fewer than 16 are outstanding), which becomes outstanding; a reply; the
beacon, built from the values standing; a notice (outside ACTIVE role the oldest EVENT), after which the
closing list is served; a prove frame. With none ready nothing is sent. -/
def Obligations.TransmitGapTakesTheFirstReadySource : Prop :=
  ∀ s : State, s.onRing = true →
    let u := (s.setOut []).completeSending
    (∀ o rest, s.isRole .active = true → u.rpt.outstanding.length < 16 → u.rpt.orders = o :: rest →
      exec .transmitGap s = .next { u with rpt := { u.rpt with
        orders := rest
        outstanding := u.rpt.outstanding ++ [⟨u.rpt.emitCount, o.dst, u.config.ringReturn⟩]
        emitCount := u.rpt.emitCount + 1
        sending := some (u.framed o.dst 2 o.order.payload) } }) ∧
    (u.noOrderReady →
      (∀ r rest, u.rpt.replies = r :: rest → exec .transmitGap s = .next { u with rpt := { u.rpt with
        replies := rest
        emitCount := u.rpt.emitCount + 1
        sending := some (u.framed r.dst 4 r.payload) } }) ∧
      (u.rpt.replies = [] →
        (u.rpt.beaconDue = true → exec .transmitGap s = .next { u with rpt := { u.rpt with
          beaconDue := false
          emitCount := u.rpt.emitCount + 1
          sending := some (u.framed 63 6
            [byte ((u.rol.role.map Role.code).getD 0), byte u.occupancy, byte (flag u.rol.unfit)]) } }) ∧
        (u.rpt.beaconDue = false →
          (∀ older n newer, u.rpt.notices = older ++ n :: newer →
            (if s.isRole .active then older = [] else n.isEvent = true ∧ ∀ x ∈ older, x.isEvent = false) →
            exec .transmitGap s = .next (State.serveClosing { u with rpt := { u.rpt with
              notices := older ++ newer
              emitCount := u.rpt.emitCount + 1
              sending := some (u.framed n.dst 5 n.payload) } })) ∧
          ((if s.isRole .active then u.rpt.notices = [] else ∀ x ∈ u.rpt.notices, x.isEvent = false) →
            (u.rpt.proving.on = true → u.rpt.proving.due = true →
              exec .transmitGap s = .next { u with rpt := { u.rpt with
                proving := u.rpt.proving.taken u.rpt.emitCount u.config.proveInterval
                emitCount := u.rpt.emitCount + 1
                sending := some (u.framed u.ownNode 7 u.rpt.proving.payload) } }) ∧
            (u.rpt.proving.on = false ∨ u.rpt.proving.due = false → exec .transmitGap s = .next u)))))

/-- R142, R143: the payload of a prove frame is the next 256 bits of the generator, with bit 0 of byte 0
inverted when an insertion is pending; taking the frame advances the generator and the stream position,
clears the insertion and the due flag, starts the interval, and enters the frame on the list, where a
seventeenth removes the oldest and adds one to the pending loss, up to 255. -/
def Obligations.ProveFramesContinueTheSequence : Prop :=
  ∀ (p : Proving) (seq : Byte) (t : Nat),
    p.payload.length = 32 ∧
    (p.insertion = false → p.payload = bytesOfBits (proveBits 256 p.generator).1) ∧
    (p.insertion = true → ∀ b rest, bytesOfBits (proveBits 256 p.generator).1 = b :: rest →
      p.payload = (b ^^^ 1) :: rest) ∧
    (p.taken seq t).generator = (proveBits 256 p.generator).2 ∧ (p.taken seq t).position = p.position + 1 ∧
    (p.taken seq t).insertion = false ∧ (p.taken seq t).due = false ∧ (p.taken seq t).interval = some t ∧
    (p.list.length < 16 → (p.taken seq t).list = p.list ++ [⟨seq, p.position⟩] ∧ (p.taken seq t).loss = p.loss) ∧
    (p.list.length = 16 → (p.taken seq t).list = p.list.tail ++ [⟨seq, p.position⟩] ∧
      (p.taken seq t).loss = min (p.loss + 1) 255)

/-- R139: the expiry of an outstanding order's timer removes it, counts it lost and issues ORDER_LOST with its
destination, and the order is not sent again. -/
def Obligations.RingReturnExpiryLosesTheOrder : Prop :=
  ∀ (s : State) (k : Nat) (o : Outstanding), s.rpt.outstanding[k]? = some o →
    exec (.ringReturnTimerExpiry k) s = .next
      ((({ s with out := [], rpt := { s.rpt with outstanding := s.rpt.outstanding.eraseIdx k } }).count
        .ordersLost 1).notify .orderLost o.dst.toNat)

/-- R134, R187, R190: an event notice joins the notice queue, addressed to the recorder node, while the queue
holds fewer than 24; else it is dropped and counted. A count raises its counter up to 4294967295 and leaves
every other one. -/
def Obligations.EventNoticesQueueOrAreCounted : Prop :=
  ∀ (s : State) (k : EventKind) (a : Nat),
    (s.rpt.notices.length < 24 → s.notify k a = { s with rpt := { s.rpt with
      notices := s.rpt.notices ++ [.event s.config.recorder k a] } }) ∧
    (24 ≤ s.rpt.notices.length → s.mga.counters.length = 22 →
      (s.notify k a).counter .eventsDropped = min (s.counter .eventsDropped + 1) 4294967295 ∧
      (∀ c, c ≠ .eventsDropped → (s.notify k a).counter c = s.counter c) ∧
      ∃ cs, s.notify k a = { s with mga := { s.mga with counters := cs } })

/-! ## Tracking: what the blocks share -/

/-- R15, R16: a finding joins an entry's set, where one already present leaves the set unchanged, and the
disposition is merged again: LOST stays LOST; else any CONDEMN finding gives CONDEMNED; else any HOLD finding
gives HOLD; else it is unchanged. Nothing else of the entry changes. The severities are those of R15's table;
that OWNER_UNKNOWN's is read from the configured action at each merge is the model's reading (log 24). -/
def Obligations.FindingsMergeIntoTheDisposition : Prop :=
  ∀ (action : UnknownOwner) (f : Finding) (r : TrackRecord),
    let t := r.addFinding action f
    (∀ g ∈ [Finding.tagWeak, .implicitPass], g.severity action = .note) ∧
      (∀ g ∈ [Finding.recallScrap, .endOfLife, .gradeReject, .tareLoss, .hydroFail, .hydroOverpressure],
        g.severity action = .condemn) ∧
      (∀ g ∈ [Finding.tagNoread, .tagDateFuture, .dateUnset, .recallHold, .ownerSuspended, .classInvalid,
          .gradeHold, .gradeMissing, .weightMissing, .weightUnstable, .tareGain, .streamLoss, .streamDegraded,
          .routeDeviation, .hydroInvalid, .headFault, .identityDoubt, .stampFault, .stampUnconfirmed,
          .stampComposeFail, .operatorHold], g.severity action = .hold) ∧
      (action = .hold → Finding.ownerUnknown.severity action = .hold) ∧
      (action = .note ∨ action = .returnBack → Finding.ownerUnknown.severity action = .note) ∧
    (∀ g, g ∈ t.findings ↔ g = f ∨ g ∈ r.findings) ∧
      (r.disposition = .lost → t.disposition = .lost) ∧
      (r.disposition ≠ .lost → (∃ g ∈ t.findings, g.severity action = .condemn) → t.disposition = .condemned) ∧
      (r.disposition ≠ .lost → (∀ g ∈ t.findings, g.severity action ≠ .condemn) →
        (∃ g ∈ t.findings, g.severity action = .hold) → t.disposition = .hold) ∧
      ((∀ g ∈ t.findings, g.severity action = .note) → t.disposition = r.disposition) ∧
      t = { r with findings := t.findings, disposition := t.disposition }

/-- R31, R33, R92, R132, R163, R167: an order that is built joins the order queue in ACTIVE role, where a
twenty-fifth is dropped and counted, and the expectation list in SHADOW role, with a timer of twice the
ring-return time, where a seventeenth pushes out the oldest, which counts one divergence. An order without a
destination is dropped and counted; in TRANSPARENT role none is built. The destinations, and the lookups of a
report's sender and of a head's stream, come from the valid entries of the station map: the first that holds the
node, or the role, or role HEAD with the head number; none where no valid entry does. An expectation pushed out
that is a TEST takes the head of its cylinder out of LOADED (log 26). -/
def Obligations.OrdersGoToTheQueueOrTheExpectations : Prop :=
  ∀ (s : State) (dst : Node) (o : Order),
    (s.isRole .active = true → s.rpt.orders.length < 24 →
      s.send (some dst) o = { s with rpt := { s.rpt with orders := s.rpt.orders ++ [⟨dst, o⟩] } }) ∧
    (s.isRole .active = true → 24 ≤ s.rpt.orders.length → s.send (some dst) o = s.count .ordersDropped 1) ∧
    (s.isRole .shadow = true → s.rol.expectations.length < 16 →
      s.send (some dst) o = { s with rol := { s.rol with
        expectations := s.rol.expectations ++ [⟨dst, o, 2 * s.config.ringReturn⟩] } }) ∧
    (∀ oldest rest, s.isRole .shadow = true → s.rol.expectations = oldest :: rest → rest.length = 15 →
      let v : State := State.diverge { s with rol := { s.rol with expectations := rest } }
      let u : State := match oldest.order with
        | .test ref .. => match v.headOf ref with
          | some n => v.leaveLoaded n
          | none => v
        | _ => v
      s.send (some dst) o = { u with rol := { u.rol with
        expectations := rest ++ [⟨dst, o, 2 * s.config.ringReturn⟩] } }) ∧
    (s.tracking = true → s.send none o = s.count .ordersDropped 1) ∧
    (s.tracking = false → s.send (some dst) o = s ∧ s.send none o = s) ∧
    (∀ older x newer, s.tables.station = older ++ x :: newer → x.valid = true →
      (∀ node, x.node = node → (∀ y ∈ older, y.valid = true → y.node ≠ node) →
        s.stationOf node = some older.length) ∧
      (∀ role, x.role = role → (∀ y ∈ older, y.valid = true → y.role ≠ role) →
        s.roleNode role = some x.node) ∧
      (∀ n, x.role = .head → x.head = n → (∀ y ∈ older, y.valid = true → y.role = .head → y.head ≠ n) →
        s.headNode n = some x.node ∧ s.headStation n = some older.length)) ∧
    (∀ node, (∀ x ∈ s.tables.station, x.valid = true → x.node ≠ node) → s.stationOf node = none) ∧
    (∀ role, (∀ x ∈ s.tables.station, x.valid = true → x.role ≠ role) → s.roleNode role = none) ∧
    (∀ n, (∀ x ∈ s.tables.station, x.valid = true → x.role = .head → x.head ≠ n) →
      s.headNode n = none ∧ s.headStation n = none)

/-- R156, R157, R159, R160: HALT is sent to all nodes when the first cause joins the halt set, and RESUME when
the last leaves it, and neither at any other change; the feed goes to HOLD, with FEED_HOLD, at the high
watermark or above, and to GO, with FEED_GO, at the low one or below; each rise of the intake queue while it
holds and stays above the low watermark sends FEED_HOLD again. -/
def Obligations.LineStopOrdersFollowTheirConditions : Prop :=
  ∀ s : State,
    (∀ c : Cause,
      (s.lsc.halt.isEmpty = true → (s.lsc.halt.add c).isEmpty = false →
        s.addCause c = ({ s with lsc := { s.lsc with halt := s.lsc.halt.add c } }).send (some 63) .halt) ∧
      (s.lsc.halt.isEmpty = false →
        s.addCause c = { s with lsc := { s.lsc with halt := s.lsc.halt.add c } }) ∧
      (s.lsc.halt.isEmpty = false → (s.lsc.halt.remove c).isEmpty = true →
        s.removeCause c =
          ({ s with lsc := { s.lsc with halt := s.lsc.halt.remove c } }).send (some 63) .resume) ∧
      (s.lsc.halt.isEmpty = true ∨ (s.lsc.halt.remove c).isEmpty = false →
        s.removeCause c = { s with lsc := { s.lsc with halt := s.lsc.halt.remove c } }) ∧
      (∀ d, (c = .overrun ∨ c = .manual ∨ ∃ e < 16, c = .jam e) →
        (s.lsc.halt.add c).contains d = (decide (d = c) || s.lsc.halt.contains d) ∧
        (s.lsc.halt.remove c).contains d = (decide (d ≠ c) && s.lsc.halt.contains d))) ∧
    (∀ n : Nat,
      let feed := fun (f : FeedState) (o : Option Order) =>
        let t : State := { s with lsc := { s.lsc with feed := f } }
        let t := match o with
          | some o => t.send (s.roleNode .induction) o
          | none => t
        { t with lsc := { t.lsc with lastIq := n } }
      s.reportIq n =
        if s.lsc.feed = .go then
          if s.config.iqHigh ≤ n then feed .hold (some .feedHold) else feed .go none
        else if n ≤ s.config.iqLow then feed .go (some .feedGo)
        else if s.lsc.lastIq < n then feed .hold (some .feedHold) else feed .hold none)

/-- R11 to R14, R18, R76: a place freed in a queue goes to its oldest claim, which leaves the list and takes the
reservation: gate A's ROUTE, a head's RELEASE or the slot's STAMP is sent in the same event; without a claim,
or with no place, nothing happens. A released reservation frees its place. An entry closed LOST gives its
reservation, whose place goes to the oldest claim, and its claims up and joins the closing list; one that
arrives at a full FQ or XQ is closed LOST, with the overrun cause, count and notice; one that arrives at FQ is
offered to the loader. -/
def Obligations.FreedPlacesGoToTheOldestClaim : Prop :=
  ∀ (s : State) (q : Queue),
    (∀ older c newer, s.occupied q + s.reserved q < q.capacity → s.trk.claims = older ++ c :: newer →
      c.queue = q → (∀ x ∈ older, x.queue ≠ q) →
      let u : State := { s with trk := { s.trk with claims := older ++ newer } }
      (∀ i, c.holder = .gateA i → s.grant q = (u.reserve i q).admitGateA i) ∧
      (∀ n i, c.holder = .head n i →
        s.grant q = ((u.reserve i q).sendHead n (.release (u.refOf i))).modHead n
          fun h => { h with release := .sent }) ∧
      (c.holder = .stampSlot → s.grant q = u.takeStampPlace)) ∧
    ((∀ x ∈ s.trk.claims, x.queue ≠ q) → s.grant q = s) ∧
    (q.capacity ≤ s.occupied q + s.reserved q → s.grant q = s) ∧
    (∀ i, (s.record i).reservation = some q →
      s.releaseReservation i = (s.modRecord i fun r => { r with reservation := none }).grant q) ∧
    (∀ i, (s.record i).reservation = none → i < s.trk.table.length →
      let u := s.modRecord i fun r => { r with disposition := .lost }
      s.closeLost i = State.setPlace i .closing { u with trk := { u.trk with
        claims := u.trk.claims.filter fun c => c.holder.entry != some i
        closing := s.trk.closing ++ [i] } }) ∧
    (∀ i, (s.record i).reservation = some q → i < s.trk.table.length →
      let u := (s.modRecord i fun r => { r with disposition := .lost, reservation := none }).grant q
      s.closeLost i = State.setPlace i .closing { u with trk := { u.trk with
        claims := u.trk.claims.filter fun c => c.holder.entry != some i
        closing := u.trk.closing ++ [i] } }) ∧
    (∀ i, q = .xq → s.arriveXq i =
      if s.trk.xq.length + s.reserved .xq < 24 then
        State.setPlace i .finish { s with trk := { s.trk with xq := s.trk.xq ++ [i] } }
      else (((s.closeLost i).count .overrun 1).addCause .overrun).closeAndNotify .overrun i) ∧
    (∀ i, q = .fq → s.arriveFq i =
      if s.trk.fq.length + s.reserved .fq < 16 then
        (State.setPlace i .feed { s with trk := { s.trk with fq := s.trk.fq ++ [i] } }).assignLoader
      else (((s.closeLost i).count .overrun 1).addCause .overrun).closeAndNotify .overrun i)

/-- R20, R21, R189, R200, R206: in ACTIVE role the closing list is served oldest first while the notice queue
has a place: a RESULT notice to the recorder node with the record as it stands, the closed counter of its
disposition, the entry freed with its generation advanced. In SHADOW role every entry of it is counted and
freed with no notice. Which of a RESULT and an event notice of one event comes first is left free (log 7). The
RESULT's 30 bytes carry the reference, the identity, the disposition, the findings in the order of R15's
table, the routes, the stamp status and the hydro result, each at its place; the test month of a result
without a test date is left free (log 8). -/
def Obligations.ClosingListIsServed : Prop :=
  (∀ s : State,
    (∀ i rest, s.trk.closing = i :: rest →
      let u := State.modEntry i TrackEntry.freed
        (({ s with trk := { s.trk with closing := rest } }).count (s.record i).disposition.counter 1)
      let r := s.record i
      let result : ResultRecord := {
        ref := ⟨i, (s.entry i).gen⟩, identity := r.identity, disposition := r.disposition,
        findings := r.findings, routeA := r.routeA, routeB := r.routeB, hydro := r.hydro,
        stampStatus := r.stampStatus, fill := s.free }
      (s.isRole .active = true → s.rpt.notices.length < 24 →
        s.serveClosing = State.serveClosing { u with
          rpt := { u.rpt with notices := u.rpt.notices ++ [.result s.config.recorder result] }
          free := u.free + 1 }) ∧
      (s.isRole .active = true → 24 ≤ s.rpt.notices.length → s.serveClosing = s) ∧
      (s.isRole .shadow = true → s.serveClosing = u.serveClosing)) ∧
    (s.trk.closing = [] → s.serveClosing = s) ∧
    (∀ i, i < s.trk.table.length →
      (s.modEntry i TrackEntry.freed).entry i = ⟨(s.entry i).gen + 1, .free, TrackRecord.fresh⟩) ∧
    (∀ k a, let u := s.setFree (s.free + 1)
      s.closeAndNotify k a = u.serveClosing.notify k a ∨ s.closeAndNotify k a = (u.notify k a).serveClosing)) ∧
  (∀ (dst : Node) (r : ResultRecord),
    let p := (Notice.result dst r).payload
    let at' := fun k : Nat => p.getD k 0
    let num := fun k n : Nat => ((List.range n).map fun j => (at' (k + j)).toNat * 256 ^ (n - 1 - j)).sum
    p.length = 30 ∧ at' 0 = 1 ∧ at' 1 = byte r.ref.index ∧ at' 2 = r.ref.gen ∧
    (r.identity = none → num 3 4 = 0 ∧ num 7 2 = 0 ∧ at' 9 = 255) ∧
    (∀ i, r.identity = some i → num 3 4 = i.serial % 2 ^ 32 ∧ num 7 2 = i.owner.toNat ∧ at' 9 = byte i.cls) ∧
    at' 10 = (match r.disposition with
      | .pending => 0
      | .returned => 1
      | .requalified => 2
      | .hold => 3
      | .condemned => 4
      | .lost => 5) ∧
    (∀ k < 30, ∀ f, ([.tagNoread, .tagWeak, .tagDateFuture, .dateUnset, .recallScrap, .recallHold,
        .ownerUnknown, .ownerSuspended, .classInvalid, .endOfLife, .gradeReject, .gradeHold, .gradeMissing,
        .weightMissing, .weightUnstable, .tareLoss, .tareGain, .streamLoss, .streamDegraded, .routeDeviation,
        .hydroFail, .hydroOverpressure, .hydroInvalid, .headFault, .identityDoubt, .stampFault,
        .stampUnconfirmed, .stampComposeFail, .operatorHold, .implicitPass] : List Finding)[k]? = some f →
      (num 11 4).testBit (31 - k) = decide (f ∈ r.findings)) ∧
    num 11 4 % 4 = 0 ∧
    at' 15 = (match r.routeA with
      | none => 255
      | some .bank => 0
      | some .returnBack => 1
      | some .bypass => 2) ∧
    at' 16 = (match r.routeB with
      | none => 255
      | some .fill => 0
      | some .scrap => 1
      | some .bench => 2) ∧
    at' 17 = (match r.stampStatus with
      | .none => 0
      | .sent => 1
      | .done => 2
      | .fault => 3
      | .unconfirmed => 4
      | .skipped => 5) ∧
    (r.hydro = none → at' 18 = 255 ∧ num 19 8 = 0 ∧ at' 27 = 0 ∧ at' 28 = 255 ∧ at' 29 = 0) ∧
    (∀ h, r.hydro = some h →
      at' 18 = (match h.verdict with
        | .none => 0
        | .pass => 1
        | .fail => 2
        | .invalid => 3
        | .notTested => 4) ∧
      num 19 2 = h.et % 65536 ∧ num 21 2 = h.ep % 65536 ∧ num 23 2 = h.ratio % 65536 ∧
      num 25 2 = h.peak % 65536 ∧ at' 27 = byte h.retests ∧ (h.date = none → at' 28 = 255) ∧
      ∀ d, h.date = some d → at' 28 = byte d.year ∧ at' 29 = byte d.month)) ∧
  ∀ (dst : Node) (k : EventKind) (arg : Nat), ∃ code : Byte,
    (Notice.event dst k arg).payload = [2, code, byte arg] ∧
    ([EventKind.stationDegraded, .stationResynced, .jamQualified, .jamCleared, .overrun, .loaderTimeout,
      .headFault, .stranger, .orderLost, .takeover, .demoted, .divergenceLimit,
      .configDefaulted][code.toNat - 1]?) = some k ∧ 1 ≤ code.toNat

/-! ## The role unit -/

/-- R80, R142, R165, R170, R171: the beacon timer's expiry sets the beacon flag and starts the timer again with its
period; the prove interval's expiry makes the next prove frame due; an expectation's expiry removes it and
counts one divergence, and if it is a TEST the head that holds its entry leaves LOADED; the eighth divergence
makes the part unfit, with a notice. A head leaves LOADED for PRESSURIZING, its ramp timer at the configured
time, and in any other state stays as it is. The head of an expectation is the one that holds the entry its
reference names (log 26). The expiry of a timer that does not run has no effect (log 3). -/
def Obligations.RoleTimersActAtTheirExpiry : Prop :=
  ∀ s : State,
    (s.rol.beaconTimer.isSome = true → exec .beaconTimerExpiry s = .next { s with
      out := []
      rpt := { s.rpt with beaconDue := true }
      rol := { s.rol with beaconTimer := some s.config.beaconPeriod } }) ∧
    (s.rol.beaconTimer = none → exec .beaconTimerExpiry s = .next { s with out := [] }) ∧
    (s.rpt.proving.interval.isSome = true → exec .proveIntervalExpiry s = .next { s with
      out := []
      rpt := { s.rpt with proving := { s.rpt.proving with due := true, interval := none } } }) ∧
    (s.rpt.proving.interval = none → exec .proveIntervalExpiry s = .next { s with out := [] }) ∧
    (∀ k e, s.rol.expectations[k]? = some e →
      let u := State.diverge { s with
        out := [], rol := { s.rol with expectations := s.rol.expectations.eraseIdx k } }
      exec (.expectationTimerExpiry k) s = .next (match e.order with
        | .test ref .. => match u.headOf ref with
          | some n => u.leaveLoaded n
          | none => u
        | _ => u)) ∧
    (∀ k, s.rol.expectations[k]? = none → exec (.expectationTimerExpiry k) s = .next { s with out := [] }) ∧
    (let d := min (s.rol.divergence + 1) 255
      let u := s.count .divergences 1
      s.diverge = if d = 8 ∧ s.rol.unfit = false then
          State.notify .divergenceLimit 8 { u with rol := { u.rol with divergence := 8, unfit := true } }
        else { u with rol := { u.rol with divergence := d } }) ∧
    (∀ n, ((s.head n).state = .loaded → s.leaveLoaded n = { s with tbc := { s.tbc with
        heads := s.tbc.heads.set n { s.head n with
          state := .pressurizing, timer := some ⟨.ramp, s.config.rampTimeout * 1000⟩ } } }) ∧
      ((s.head n).state ≠ .loaded → s.leaveLoaded n = s)) ∧
    (∀ ref : TrackRef,
      ((s.entry ref.index).gen ≠ ref.gen → s.headOf ref = none) ∧
      ((∀ h ∈ s.tbc.heads, h.cylinder ≠ some ref.index) → s.headOf ref = none) ∧
      (∀ below h above, (s.entry ref.index).gen = ref.gen → s.tbc.heads = below ++ h :: above →
        h.cylinder = some ref.index → (∀ x ∈ below, x.cylinder ≠ some ref.index) →
        s.headOf ref = some below.length))

/-- R128 to R130, R166, R172, R174, R175: an intact partner BEACON with role ACTIVE or SHADOW is repeated and
recorded, and the partner is PRESENT; a SHADOW part starts its partner-seen timer again; an ACTIVE part of the
higher node that hears an ACTIVE partner becomes SHADOW: the partner-seen timer starts, orders waiting and
outstanding are withdrawn, the closing list is served without notices, DEMOTED is issued. Any other role code is
ignored. In LOADING and in loop mode LOCAL the BEACON is repeated and no more; where the partner's node is the
part's own it is a frame of the part's own, and is removed. An occupancy above 80 and an unfit byte above 1 are
recorded as values left free (log 9). -/
def Obligations.PartnerBeaconsAreRecorded : Prop :=
  ∀ (s : State) (seq role occupancy unfit : Byte),
    s.onRing = true →
    let u := (s.setOut []).repeatFrame (beaconRaw s.config.partner seq role occupancy unfit)
    (s.config.partner = s.ownNode → exec (.partnerBeacon seq role occupancy unfit) s = .next (s.setOut [])) ∧
    (s.config.partner ≠ s.ownNode → s.cfl.loading = true ∨ s.rpt.loop = .local →
      exec (.partnerBeacon seq role occupancy unfit) s = .next u) ∧
    (s.cfl.loading = false → s.rpt.loop = .normal → s.config.partner ≠ s.ownNode →
    (role ≠ 1 → role ≠ 2 → exec (.partnerBeacon seq role occupancy unfit) s = .next u) ∧
    ∃ (seen : Nat) (flag : Bool), seen ≤ 80 ∧ (occupancy.toNat ≤ 80 → seen = occupancy.toNat) ∧
      (unfit = 0 → flag = false) ∧ (unfit = 1 → flag = true) ∧
      ∀ r, (role = 1 ∧ r = Role.active) ∨ (role = 2 ∧ r = Role.shadow) →
        let v : State := { u with
          rol := { u.rol with partner := { presence := .present, role := some r, occupancy := some seen,
                                           unfit := some flag } }
          free := u.free + 1 }
        (s.isRole .shadow = true → exec (.partnerBeacon seq role occupancy unfit) s =
          .next { v with rol := { v.rol with partnerSeen := some s.config.takeoverTime } }) ∧
        (s.isRole .active = true → r = .active → s.config.partner.toNat < s.config.own.toNat →
          exec (.partnerBeacon seq role occupancy unfit) s = .next ((State.serveClosing { v with
            rol := { v.rol with role := some .shadow, partnerSeen := some s.config.takeoverTime }
            rpt := { v.rpt with orders := [], outstanding := [] } }).notify .demoted
              s.config.partner.toNat)) ∧
        (s.isRole .shadow = false →
          s.isRole .active = false ∨ r = .shadow ∨ s.config.own.toNat ≤ s.config.partner.toNat →
          exec (.partnerBeacon seq role occupancy unfit) s = .next v))

/-- R172, R173: at the expiry of the partner-seen timer of a SHADOW part the partner is ABSENT; with
auto-takeover on and the unfit flag clear the part becomes ACTIVE: its expectations are given to the order
queue oldest first, the heads in LOADED start their ramps, the line and feed states are sent again, proving
goes off, and TAKEOVER is issued with the number of expectations; else it stays SHADOW and the timer stays
stopped. The expiry of a timer that does not run has no effect (log 3); what turning proving off leaves standing
is the model's choice (log 21). -/
def Obligations.PartnerSeenExpiryTakesOver : Prop :=
  ∀ s : State,
    (s.isRole .shadow = true → s.rol.partnerSeen.isSome = true →
      let u : State := { s with
        out := []
        rol := { s.rol with partnerSeen := none, partner := { s.rol.partner with presence := .absent } } }
      (s.config.autoTakeover = false ∨ s.rol.unfit = true → exec .partnerSeenTimerExpiry s = .next u) ∧
      (s.config.autoTakeover = true → s.rol.unfit = false →
        s.rpt.orders.length + s.rol.expectations.length ≤ 24 →
        let v : State := { u with
          rpt := { u.rpt with
            orders := s.rpt.orders ++ s.rol.expectations.map fun e => ⟨e.dst, e.order⟩ }
          rol := { u.rol with role := some .active, expectations := [] } }
        let w := (((v.leaveLoaded 0).leaveLoaded 1).leaveLoaded 2).leaveLoaded 3
        let x := (w.send (some 63) (if s.lsc.halt.isEmpty then .resume else .halt)).send
          (s.roleNode .induction) (if s.lsc.feed = .hold then .feedHold else .feedGo)
        exec .partnerSeenTimerExpiry s = .next (State.notify .takeover s.rol.expectations.length { x with
          rpt := { x.rpt with proving := { x.rpt.proving with
            on := false, interval := none, due := false, insertion := false, list := [],
            checker := .off } } }))) ∧
    (s.isRole .shadow = false ∨ s.rol.partnerSeen = none →
      exec .partnerSeenTimerExpiry s = .next { s with out := [] })

/-- R99, R128 to R130, R168, R169, R199: an intact ORDER of the partner is repeated, and in SHADOW role compared
with the oldest expectation of its kind, destination and reference, which it removes: equal content counts
nothing, different content one divergence, and no such expectation one divergence. An ASSIGN with another head,
or with no expectation, asks for a move to the partner's head: none is counted where the entry moves; one is
where no move is made, except that an ASSIGN with no expectation may find the entry already there. A TEST also
takes the head whose station entry holds its destination out of LOADED. A payload that fits no layout counts one
divergence. In the other roles nothing but the repeating is done. That an ASSIGN with a head above 3 moves
nothing, and that one with another head counts where the entry already stands, is the model's reading (log 18),
and that a TEST of a wrong length takes no head out of LOADED its choice (log 35). A head adopted from FQ is
assigned as the arbiter assigns, but with no ASSIGN. In LOADING and in loop mode LOCAL the ORDER is repeated and
no more; where the partner's node is the part's own it is removed. -/
def Obligations.PartnerOrdersMeetTheExpectations : Prop :=
  ∀ (s : State) (dst : Node) (seq : Byte) (payload : List Byte),
    s.onRing = true →
    let u := (s.setOut []).repeatFrame (orderRaw dst s.config.partner seq payload)
    (s.config.partner = s.ownNode → exec (.partnerOrder dst seq payload) s = .next (s.setOut [])) ∧
    (s.config.partner ≠ s.ownNode → s.cfl.loading = true ∨ s.rpt.loop = .local →
      exec (.partnerOrder dst seq payload) s = .next u) ∧
    (∀ (e : Expectation) (o : OrderWire), e.meets dst o = true ↔
      e.dst = dst ∧ e.order.wire.kind = o.kind ∧ e.order.wire.ref = o.ref) ∧
    (s.cfl.loading = false → s.rpt.loop = .normal → s.config.partner ≠ s.ownNode →
    (s.isRole .shadow = false → exec (.partnerOrder dst seq payload) s = .next u) ∧
    (s.isRole .shadow = true → parseOrder payload = none →
      exec (.partnerOrder dst seq payload) s = .next u.diverge) ∧
    (∀ o, s.isRole .shadow = true → parseOrder payload = some o →
      let after := fun (t : State) =>
        if o.kind = 3 then
          match s.tables.station.find? fun e => e.valid && e.role == .head && e.node == dst with
          | some e => t.leaveLoaded e.head
          | none => t
        else t
      let asked := fun (already : Bool) (t : State) =>
        match o.ref, o.content with
        | some r, [m] =>
          if m.toNat < 4 ∧ s.current ⟨r.index.toNat, r.gen⟩ = true then
            match t.moveHead r.index.toNat m.toNat with
            | (.moved, t') => t'
            | (.already, t') => if already then t' else t'.diverge
            | (.refused, t') => t'.diverge
          else t.diverge
        | _, _ => t.diverge
      (∀ older e newer, s.rol.expectations = older ++ e :: newer → e.meets dst o = true →
        (∀ x ∈ older, x.meets dst o = false) →
        let v : State := { u with rol := { u.rol with expectations := older ++ newer } }
        (e.order.wire.content = o.content → exec (.partnerOrder dst seq payload) s = .next (after v)) ∧
        (e.order.wire.content ≠ o.content → o.kind ≠ 2 →
          exec (.partnerOrder dst seq payload) s = .next (after v.diverge)) ∧
        (e.order.wire.content ≠ o.content → o.kind = 2 →
          exec (.partnerOrder dst seq payload) s = .next (asked false v))) ∧
      ((∀ x ∈ s.rol.expectations, x.meets dst o = false) →
        (o.kind ≠ 2 → exec (.partnerOrder dst seq payload) s = .next (after u.diverge)) ∧
        (o.kind = 2 → exec (.partnerOrder dst seq payload) s = .next (asked true u))))) ∧
    (∀ i m : Nat,
      ((s.head m).cylinder = some i → s.moveHead i m = (.already, s)) ∧
      (∀ j, (s.head m).cylinder = some j → j ≠ i → s.moveHead i m = (.refused, s)) ∧
      (∀ h, (s.head m).cylinder = none →
        s.tbc.heads.findIdx? (fun r => r.cylinder == some i && r.state == .assigned) = some h →
        let v := s.modHead m fun r => { r with state := .assigned, cylinder := some i }
        let v : State := { v with tbc := { v.tbc with loader := { v.tbc.loader with serving := some m } } }
        s.moveHead i m =
          (.moved, ((v.modHead h fun _ => HeadRecord.reset).setPlace i (.head m)).assignLoader)) ∧
      ((s.head m).cylinder = none →
        s.tbc.heads.findIdx? (fun r => r.cylinder == some i && r.state == .assigned) = none →
        (∀ rest, s.trk.fq = i :: rest → s.tbc.loader.serving = none →
          let v := State.setPlace i (.head m) { s with trk := { s.trk with fq := rest } }
          let v := v.modHead m fun h => { h with state := .assigned, cylinder := some i }
          s.moveHead i m = (.moved, State.grant .fq { v with tbc := { v.tbc with
            loader := { serving := some m, timer := some (s.config.loadTimeout * 1000) } } })) ∧
        (s.trk.fq.head? ≠ some i ∨ s.tbc.loader.serving ≠ none → s.moveHead i m = (.refused, s))))

/-! ## The delivery of a report -/

/-- R31, R32, R128 to R130, R147, R148, R150: a report frame of another node is repeated; in TRANSPARENT role,
in LOADING, and from a node of no valid station entry, nothing more is done. Else its sequence number is
compared with the one expected: 128 to 255 ahead it is stale, counted and no more; else the frame is
accepted, after a gap of `d` frames, which are counted. The run count, the history and the grade of the
stream follow; a change between SYNCED and DEGRADED is noticed, and marks the head that the station serves;
the `d` oldest entries of IQ that lack the measurement of a scale or a booth have it marked LOST; then the
report reaches the block of the sender's role, and is stray where that block does not take it. -/
def Obligations.ReportsPassTheSequenceCheck : Prop :=
  ∀ (s : State) (src : Node) (seq : Byte) (r : Report), s.onRing = true → src ≠ s.ownNode →
    let u := (s.setOut []).repeatFrame (reportRaw src seq r)
    (s.cfl.loading = true ∨ s.tracking = false → s.report src seq r = .next u) ∧
    (s.cfl.loading = false → s.tracking = true → s.stationOf src = none → s.report src seq r = .next u) ∧
    (∀ e, s.maps src e →
      let x := s.stream e
      let st := s.station e
      let d := match x.expected with
        | none => 0
        | some y => (seq - y).toNat
      (127 < d → s.report src seq r = .next (u.count .stale 1)) ∧
      (d ≤ 127 →
        let run := if d = 0 then min (x.run + 1) 8 else 0
        let marks := x.history ++ [if d = 0 then Mark.clean else Mark.gap]
        let history := marks.drop (marks.length - 32)
        let grade := match x.state with
          | .new => if run = 8 then StreamState.synced else .new
          | .synced => if d ≠ 0 ∧ 4 ≤ history.count .gap then .degraded else .synced
          | .degraded => if run = 8 then .synced else .degraded
        let counted := if d = 0 then u else u.count .streamGaps d
        let v : State := { counted with smn := { counted.smn with
          streams := counted.smn.streams.set e ⟨grade, some (seq + 1), run, history⟩ } }
        let degraded := v.notify .stationDegraded st.node.toNat
        let w := if x.state = .synced ∧ grade = .degraded then
            if st.role = .head ∧ (degraded.head st.head).state.testing = true then
              degraded.modHead st.head fun h => { h with degradedSeen := true }
            else degraded
          else if x.state = .degraded ∧ grade = .synced then v.notify .stationResynced st.node.toNat
          else v
        let lost := fun (i : Nat) (t : State) => (t.modRecord i fun r =>
          match st.role with
          | .weigh => { r with weight := .lost }
          | _ => { r with grade := .lost }).addFinding i .streamLoss
        let lacking := match st.role with
          | .weigh => s.trk.iq.filter s.lacksWeight
          | .inspect => s.trk.iq.filter s.lacksGrade
          | _ => []
        let t := (lacking.take d).foldl (fun t i => lost i t) w
        e < s.smn.streams.length →
        s.hears src seq r e t ∧ s.report src seq r = .next (t.dispatch e r) ∧
          (st.role.takes r = false → s.report src seq r = .next (t.count .stray 1))))

/-! ## The jam qualifiers -/

/-- R151 to R154: JAM, CLEAR and the three timers of a station's jam qualifier, in each jam mode and state.
The expiry of a timer that does not run has no effect (log 3). -/
def Obligations.JamQualifiersFollowTheirReports : Prop :=
  ∀ (s u : State) (src : Node) (seq : Byte) (e : Nat),
    let q := u.jam e
    let mode := (u.station e).jam
    let gap := some u.config.jamGap
    (s.hears src seq .jam e u →
      exec (.jam src seq) s = .next (
        if mode = .off ∨ (mode = .auto ∧ q.state = .jammed) ∨ (mode = .notify ∧ q.state = .clearing) then u
        else u.modJam e fun q => match q.state with
          | .idle => { q with state := .qualifying, qualify := some u.config.jamQualify, gap := gap }
          | .qualifying => { q with gap := gap }
          | .jammed => { q with gap := gap }
          | .clearing => { q with state := .jammed, clear := none, gap := none })) ∧
    (s.hears src seq .clear e u →
      exec (.clear src seq) s = .next (
        if mode = .auto ∧ q.state = .jammed then
          u.modJam e fun q => { q with state := .clearing, clear := some u.config.clearQualify, gap := gap }
        else if mode = .auto ∧ q.state = .clearing then u.modJam e fun q => { q with gap := gap }
        else u)) ∧
    (∀ k : Fin 16,
      let q := s.jam k.val
      let mode := (s.station k.val).jam
      let arg := (s.station k.val).node.toNat
      let v := s.setOut []
      exec (.jamQualifyExpiry k) s = .next (
        if q.qualify.isSome = true ∧ q.state = .qualifying ∧ mode = .notify then
          (v.modJam k.val fun q => { q with state := .jammed, qualify := none }).notify .jamQualified arg
        else if q.qualify.isSome = true ∧ q.state = .qualifying ∧ mode = .auto then
          ((v.modJam k.val fun q => { q with state := .jammed, qualify := none, gap := none }).notify
            .jamQualified arg).addCause (.jam k.val)
        else v) ∧
      exec (.jamGapExpiry k) s = .next (
        if q.gap.isSome = true ∧ mode ≠ .off ∧ q.state = .qualifying then
          v.modJam k.val fun _ => JamQualifier.reset
        else if q.gap.isSome = true ∧ mode = .notify ∧ q.state = .jammed then
          (v.modJam k.val fun _ => JamQualifier.reset).notify .jamCleared arg
        else if q.gap.isSome = true ∧ mode = .auto ∧ q.state = .clearing then
          v.modJam k.val fun q => { q with state := .jammed, clear := none, gap := none }
        else v) ∧
      exec (.clearQualifyExpiry k) s = .next (
        if q.clear.isSome = true ∧ mode = .auto ∧ q.state = .clearing then
          ((v.modJam k.val fun _ => JamQualifier.reset).removeCause (.jam k.val)).notify .jamCleared arg
        else v))

/-! ## Intake and gate A -/

/-- R1, R4, R6, R19, R47 to R56: an induction TAG takes the lowest-numbered FREE entry, which joins the tail of IQ
with its identity, the class and owner snapshots, the due state and every finding of the induction rules; a read
with a field outside its range counts as NOREAD; with 24 entries in IQ, or no FREE entry, it is an intake
overrun: counted, the OVERRUN cause added, noticed. -/
def Obligations.InductionTagsTakeTheLowestFreeEntry : Prop :=
  (readIdentity .noread = none ∧ ∀ f : TagFields,
    let id := fun (q : ReadQuality) => Identity.mk f.serial.toNat f.owner f.cls.toNat f.lastYear.toNat
      f.lastMonth.toNat f.tare.toNat f.mfgYear.toNat q
    let fits := f.cls.toNat ≤ 63 ∧ f.lastYear.toNat ≤ 99 ∧ 1 ≤ f.lastMonth.toNat ∧ f.lastMonth.toNat ≤ 12 ∧
      100 ≤ f.tare.toNat ∧ f.tare.toNat ≤ 20000 ∧ f.mfgYear.toNat ≤ 99
    (fits → readIdentity (.good f) = some (id .good) ∧ readIdentity (.weak f) = some (id .weak)) ∧
      (¬ fits → readIdentity (.good f) = none ∧ readIdentity (.weak f) = none)) ∧
  ∀ (s u : State) (src : Node) (seq : Byte) (tag : TagRead) (e : Nat),
    s.hears src seq (.tag tag) e u → (u.station e).role = .induction →
    ((∀ x ∈ u.trk.table, x.place ≠ .free) ∨ 24 ≤ u.trk.iq.length →
      exec (.inductionTag src seq tag) s =
        .next (((u.count .overrun 1).addCause .overrun).notify .overrun u.trk.iq.length)) ∧
    (∀ older x newer, u.trk.table = older ++ x :: newer → x.place = .free →
      (∀ y ∈ older, y.place ≠ .free) → u.trk.iq.length < 24 →
      let i := older.length
      let taken : State := { u with trk := { u.trk with
        table := older ++ { x with place := .intake, record := TrackRecord.fresh } :: newer
        iq := u.trk.iq ++ [i] } }
      let add := fun (c : Bool) (f : Finding) (r : TrackRecord) =>
        if c then r.addFinding u.config.unknownOwner f else r
      let last := fun (r : TrackRecord) => add u.mga.date.isNone .dateUnset
        (add (decide ((u.stream e).state = .degraded)) .streamDegraded r)
      (readIdentity tag = none →
        exec (.inductionTag src seq tag) s = .next ((taken.reportIq (u.trk.iq.length + 1)).modRecord i
          fun r => last (add true .tagNoread r))) ∧
      (∀ id, readIdentity tag = some id →
        let entry := u.tables.cls.getD id.cls ClassEntry.reset
        let cls := if entry.valid then some entry.limits else none
        let owner := u.tables.owner.find? fun o => o.valid && (id.owner &&& o.mask) == (o.code &&& o.mask)
        let recalls := u.tables.recallList.filter fun r => r.valid && (r.ownerAny || r.owner == id.owner) &&
          (r.classAny || r.cls == id.cls) && r.first ≤ id.serial && id.serial ≤ r.last
        let scrap := recalls.any fun r => r.action == .scrap
        let hold := recalls.any fun r => r.action == .hold
        let base := fun (r : TrackRecord) => { r with
          identity := some id, classSnap := cls, ownerSnap := owner.map fun o => ⟨o.advance, o.passTemplate⟩ }
        let tables := fun (r : TrackRecord) =>
          add (!scrap && hold) .recallHold (add scrap .recallScrap (add owner.isNone .ownerUnknown
            (add (owner.any fun o => o.state == .suspended) .ownerSuspended (add cls.isNone .classInvalid
              (add (id.quality == .weak) .tagWeak (base r))))))
        let dated := fun (d : Date) (r : TrackRecord) =>
          let now := d.year * 12 + (d.month - 1)
          let test := id.lastYear * 12 + (id.lastMonth - 1)
          let advance := (owner.map OwnerEntry.advance).getD 0
          let dueState := match cls with
            | some l => if now < test then Due.unknown
                else if l.interval ≤ now - test + advance then .due else .notDue
            | none => .unknown
          let old := match cls with
            | some l => decide (id.mfgYear ≤ d.year ∧ 0 < l.life ∧ l.life ≤ d.year - id.mfgYear)
            | none => false
          add old .endOfLife (add (decide (now < test ∨ d.year < id.mfgYear)) .tagDateFuture
            { r with due := dueState })
        exec (.inductionTag src seq tag) s = .next ((taken.reportIq (u.trk.iq.length + 1)).modRecord i
          fun r => last (match u.mga.date with
            | some d => dated d (tables r)
            | none => tables r))))

/-- R57 to R60: a WEIGHT, clamped to 250000 g, is stored for the oldest entry of IQ whose weight is absent and
whose at-gate mark is clear, and a GRADE, clamped to 7, likewise; each adds STREAM_DEGRADED on a DEGRADED
stream. An unstable weight adds WEIGHT_UNSTABLE; a stable one of an entry with an identity and a class that is
not COMPOSITE is compared with the stamped tare: a loss whose ratio reaches the class's limit adds TARE_LOSS,
a gain above the limit TARE_GAIN. Grades 2 to 6 add GRADE_REJECT, 7 GRADE_HOLD. With no such entry the report
is counted as unattributed. -/
def Obligations.MeasurementsReachTheOldestEntryLackingThem : Prop :=
  ∀ (s u : State) (src : Node) (seq : Byte) (e : Nat),
    let add := fun (c : Bool) (f : Finding) (r : TrackRecord) =>
      if c then r.addFinding u.config.unknownOwner f else r
    let doubt := decide ((u.stream e).state = .degraded)
    (∀ (grams : BitVec 32) (stable : Bool), s.hears src seq (.weight grams stable) e u →
      (u.station e).role = .weigh →
      let lacks := fun i => (u.record i).weight = .absent ∧ (u.record i).atGate = false
      let w := min grams.toNat 250000
      ((∀ i ∈ u.trk.iq, ¬ lacks i) → exec (.weight src seq grams stable) s = .next (u.count .unattributed 1)) ∧
      (∀ older i newer, u.trk.iq = older ++ i :: newer → lacks i → (∀ x ∈ older, ¬ lacks x) →
        exec (.weight src seq grams stable) s = .next (u.modRecord i fun r =>
          let r := add doubt .streamDegraded { r with weight := .measured w stable }
          if stable = false then add true .weightUnstable r
          else match (u.record i).identity, (u.record i).classSnap with
            | some id, some l =>
              let t := id.tare * 10
              if l.material = .composite ∨ w = t then r
              else if w < t then
                add (decide (0 < l.tareLoss ∧ l.tareLoss ≤ (t - w) * 1000 / t)) .tareLoss r
              else add (decide (l.tareGain < w - t)) .tareGain r
            | _, _ => r))) ∧
    (∀ grade : Byte, s.hears src seq (.grade grade) e u → (u.station e).role = .inspect →
      let lacks := fun i => (u.record i).grade = .absent ∧ (u.record i).atGate = false
      let g := min grade.toNat 7
      ((∀ i ∈ u.trk.iq, ¬ lacks i) → exec (.grade src seq grade) s = .next (u.count .unattributed 1)) ∧
      (∀ older i newer, u.trk.iq = older ++ i :: newer → lacks i → (∀ x ∈ older, ¬ lacks x) →
        exec (.grade src seq grade) s = .next (u.modRecord i fun r =>
          add (decide (2 ≤ g ∧ g ≤ 6)) .gradeReject (add (decide (g = 7)) .gradeHold
            (add doubt .streamDegraded { r with grade := .graded g })))))

/-- R62, R64 to R69: an AT_GATE at gate A. IDLE: the number of the last passage, or an empty IQ, is stray; else
the head of IQ is served: missing measurements add their findings, the route is BYPASS for HOLD or CONDEMNED,
RETURN for one not due (or an unknown owner under that action), else BANK; the ROUTE is sent, with a place in
FQ or XQ reserved for BANK and BYPASS, and the entry leaves IQ for the gate A slot; with no place it waits,
marked, with a claim. DEFERRED: the number is stored. PENDING: the same number is answered with the ROUTE
again; another one makes the served entry pass on its ordered route, with IMPLICIT_PASS, and is then taken as
by the IDLE gate. -/
def Obligations.GateAServesTheHeadOfTheIntakeQueue : Prop :=
  ∀ (s u : State) (src : Node) (seq arrival : Byte) (e : Nat),
    s.hears src seq (.atGate arrival) e u → (u.station e).role = .gateA →
    let g := u.scr.gate
    let idle := fun (v : State) =>
      if v.scr.gate.last = some arrival ∨ v.trk.iq = [] then v.count .stray 1
      else match v.trk.iq with
        | [] => v
        | i :: rest =>
          let r := v.record i
          let unweighed := match r.weight with
            | .measured .. => false
            | _ => r.classSnap.all fun l => l.material != .composite
          let ungraded := match r.grade with
            | .graded _ => false
            | _ => true
          let v := (v.addFindingIf unweighed i .weightMissing).addFindingIf ungraded i .gradeMissing
          let r := v.record i
          let route := if r.disposition = .hold ∨ r.disposition = .condemned then RouteA.bypass
            else if r.due = .notDue ∨ (.ownerUnknown ∈ r.findings ∧ u.config.unknownOwner = .returnBack) then
              .returnBack
            else .bank
          let record := fun (st : GateState) (v : State) => { v with scr := { gate :=
            { state := st, item := some (.entry i), stored := some arrival, ordered := some route,
              last := v.scr.gate.last } } }
          let sent := fun (v : State) =>
            let v := (record v.scr.gate.state v).send (v.roleNode .gateA) (.routeA route (v.refOf i) arrival)
            let v := v.modRecord i fun r => { r with atGate := false }
            let v := State.setPlace i .gateA { v with trk := { v.trk with gateA := some i, iq := rest } }
            record .pending (v.reportIq rest.length)
          let wait := fun (q : Queue) (v : State) =>
            let v : State := { v with trk := { v.trk with claims := v.trk.claims ++ [⟨q, .gateA i⟩] } }
            record .deferred (v.modRecord i fun r => { r with atGate := true })
          match route with
          | .returnBack => sent v
          | .bank => if v.trk.fq.length + v.reserved .fq < 16 then sent (v.reserve i .fq) else wait .fq v
          | .bypass => if v.trk.xq.length + v.reserved .xq < 24 then sent (v.reserve i .xq) else wait .xq v
    (g.state = .idle → exec (.atGate src seq arrival) s = .next (idle u)) ∧
    (g.state = .deferred →
      exec (.atGate src seq arrival) s = .next { u with scr := { gate := { g with stored := some arrival } } }) ∧
    (∀ i route, g.state = .pending → g.item = some (.entry i) → g.ordered = some route →
      (g.stored = some arrival → exec (.atGate src seq arrival) s =
        .next (u.send (u.roleNode .gateA) (.routeA route (u.refOf i) arrival))) ∧
      (g.stored ≠ some arrival →
        exec (.atGate src seq arrival) s = .next (idle ((u.addFinding i .implicitPass).passOrderedA i route))))

/-- R7, R12, R14, R17, R70, R71: a PASSED at gate A while a ROUTE is pending takes the served entry out of the
gate A slot, which leaves the gate IDLE with the stored number as the last one, and records the route. On the
ordered route a reservation becomes the place in FQ or XQ; on another one ROUTE_DEVIATION is added first and
the reservation is released, and the entry joins the queue if there is room, else is closed LOST; RETURN
makes a PENDING entry RETURNED, and closes it. With no ROUTE pending, or a code of no route, it is stray. -/
def Obligations.GateAPassagesMoveTheServedEntry : Prop :=
  ∀ (s u : State) (src : Node) (seq route : Byte) (ref : WireRef) (e : Nat),
    s.hears src seq (.passed route ref) e u → (u.station e).role = .gateA →
    let g := u.scr.gate
    let leave := fun (v : State) => { v with
      trk := { v.trk with gateA := none }
      scr := { gate := { state := .idle, item := none, stored := none, ordered := none, last := g.stored } } }
    let close := fun (i : Nat) (v : State) =>
      let v := v.modRecord i fun r => if r.disposition = .pending then { r with disposition := .returned } else r
      State.serveClosing (State.setPlace i .closing { v with trk := { v.trk with closing := v.trk.closing ++ [i] } })
    (g.state ≠ .pending ∨ 2 < route.toNat → exec (.passed src seq route ref) s = .next (u.count .stray 1)) ∧
    (∀ i ordered, g.state = .pending → g.item = some (.entry i) → g.ordered = some ordered →
      ∀ taken, route.toNat = RouteA.code taken →
        (taken = ordered →
          let v := leave (u.modRecord i fun r => { r with routeA := some taken, reservation := none })
          exec (.passed src seq route ref) s = .next (match taken with
            | .bank => (State.setPlace i .feed { v with trk := { v.trk with fq := v.trk.fq ++ [i] } }).assignLoader
            | .bypass => State.setPlace i .finish { v with trk := { v.trk with xq := v.trk.xq ++ [i] } }
            | .returnBack => close i v)) ∧
        (taken ≠ ordered →
          let v := (u.addFinding i .routeDeviation).modRecord i fun r => { r with routeA := some taken }
          let v := leave (v.releaseReservation i)
          exec (.passed src seq route ref) s = .next (match taken with
            | .bank => v.arriveFq i
            | .bypass => v.arriveXq i
            | .returnBack => close i v)))

/-! ## The test bank -/

/-- R33, R37, R75, R76, R79, R95: what the bank's orders come with. TEST: readings cleared, the automatic retest
counted, degraded seen taken from the head's stream, Pmax from the class, the ramp started in ACTIVE role and
LOADED in SHADOW role. RELEASE at DONE: an XQ place reserved and RELEASE sent, else a claim. ASSIGN: the FQ head
to the lowest-numbered EMPTY head when the loader is IDLE, with the load timer and the freed FQ place. The
limits are those of the entry's class snapshot; where it is absent, which no run reaches, those of a reset class
(log 22). -/
def Obligations.BankOrdersComeWithTheirEffects : Prop :=
  ∀ (s : State) (n i : Nat),
    (let l := s.limits i
      let degraded := (s.headStation n).any fun e => (s.stream e).state == .degraded
      let v := s.modRecord i fun r =>
        let y := r.hydro.getD Hydro.fresh
        { r with hydro := some { y with
          retests := if (s.head n).retest = .automatic then y.retests + 1 else y.retests
          et := 0, ep := 0, ratio := 0 } }
      let v := v.modHead n fun h =>
        { h with window := [], retest := .none, degradedSeen := degraded, timer := none }
      let v := v.send (s.headNode n) (.test (s.refOf i) l.pt l.hold (l.pt + l.pt * l.margin / 1000))
      s.issueTest n i = if s.isRole .active then
          v.modHead n fun h =>
            { h with state := .pressurizing, timer := some ⟨.ramp, s.config.rampTimeout * 1000⟩ }
        else v.modHead n fun h => { h with state := .loaded }) ∧
    ( let v := s.modHead n fun h => { h with state := .done, timer := none }
      s.enterDone n i =
        if (s.head n).release ≠ .none then v
        else if s.trk.xq.length + s.reserved .xq < 24 then
          ((v.reserve i .xq).send (s.headNode n) (.release (s.refOf i))).modHead n
            fun h => { h with release := .sent }
        else State.modHead n (fun h => { h with release := .claimed })
          { v with trk := { v.trk with claims := v.trk.claims ++ [⟨.xq, .head n i⟩] } }) ∧
    (∀ rest full empty below, s.tbc.loader.serving = none → s.trk.fq = i :: rest →
      s.tbc.heads = below ++ empty :: full → empty.state = .empty → (∀ h ∈ below, h.state ≠ .empty) →
      below.length = n →
      let v := s.send (s.roleNode .loader) (.assign n (s.refOf i))
      let v := State.setPlace i (.head n) { v with trk := { v.trk with fq := rest } }
      let v := v.modHead n fun h => { h with state := .assigned, cylinder := some i }
      s.assignLoader = State.grant .fq { v with tbc := { v.tbc with
        loader := { serving := some n, timer := some (s.config.loadTimeout * 1000) } } }) ∧
    (s.tbc.loader.serving ≠ none ∨ s.trk.fq = [] ∨ (∀ h ∈ s.tbc.heads, h.state ≠ .empty) →
      s.assignLoader = s) ∧
    (∀ l, (s.record i).classSnap = some l → s.limits i = l) ∧
    ((s.record i).classSnap = none → s.limits i = {
      material := .steel, interval := 1, life := 0, pt := 10, margin := 0, tolerance := 1, hold := 10, permLimit := 1
      elasticLimit := 0, tareLoss := 0, tareGain := 0, maxRetests := 0, ventThreshold := 1, settle := 5, strike := 0 })

/-- R77, R78: a LOADED for the head in ASSIGNED makes the loader IDLE; a held or condemned cylinder is not
tested: verdict NOT_TESTED with the date, outcome fixed, DONE; any other is tested. For another head it is
stray. The load timer's expiry faults the served head, makes the loader IDLE, closes the cylinder LOST, and
issues LOADER_TIMEOUT. After each, the loader is offered the next cylinder. The expiry of a timer that does not
run has no effect (log 3). -/
def Obligations.LoadedCylindersAreTestedOrHeld : Prop :=
  ∀ (s u : State) (src : Node) (seq head : Byte) (ref : WireRef) (e : Nat),
    (s.hears src seq (.loaded head ref) e u → (u.station e).role = .loader →
      let n := head.toNat
      let v := { u with tbc := { u.tbc with loader := Loader.reset } }
      (3 < n ∨ (u.head n).state ≠ .assigned →
        exec (.loaded src seq head ref) s = .next (u.count .stray 1)) ∧
      (∀ i, n ≤ 3 → (u.head n).state = .assigned → (u.head n).cylinder = some i →
        ((u.record i).disposition = .hold ∨ (u.record i).disposition = .condemned →
          let w := v.modRecord i fun r => { r with hydro := some { r.hydro.getD Hydro.fresh with
            verdict := .notTested, date := u.mga.date } }
          let w := w.modHead n fun h => { h with fixed := true, retest := .none }
          exec (.loaded src seq head ref) s = .next (w.enterDone n i).assignLoader) ∧
        ((u.record i).disposition ≠ .hold → (u.record i).disposition ≠ .condemned →
          exec (.loaded src seq head ref) s = .next (v.issueTest n i).assignLoader))) ∧
    (∀ n i, s.tbc.loader.serving = some n → s.tbc.loader.timer.isSome = true →
      (s.head n).cylinder = some i →
      let v := (s.setOut []).modHead n fun h => { h with state := .faulted, cylinder := none }
      let v : State := { v with tbc := { v.tbc with loader := Loader.reset } }
      exec .loadTimerExpiry s = .next ((v.closeLost i).closeAndNotify .loaderTimeout n).assignLoader) ∧
    (s.tbc.loader.timer = none → exec .loadTimerExpiry s = .next (s.setOut []))

/-- R80 to R82, R84, R87, R88: a PRESSURE sample, clamped to 1000 bar, raises the peak from PRESSURIZING to
MEASURING, and is stray at a head without a test under way. While the cylinder may stand under pressure:
above Pmax it is an overpressure, FAIL with the date, HYDRO_OVERPRESSURE, outcome fixed, VENT; at Pt in
PRESSURIZING the hold starts with an empty window; below Pt less the tolerance in HOLDING the test is INVALID.
At the vent threshold in VENTING the vent ends: DONE with a fixed outcome, TEST with a retest pending, else
SETTLING. LOADED first becomes PRESSURIZING. That a sample in VENTING above Pmax and at or below the threshold
ends the vent is the model's choice (log 31). -/
def Obligations.PressureSamplesDriveTheTest : Prop :=
  ∀ (s u : State) (src : Node) (seq : Byte) (bar : Half) (e : Nat),
    s.hears src seq (.pressure bar) e u → (u.station e).role = .head →
    let n := (u.station e).head
    let st := (u.head n).state
    let p := min bar.toNat 1000
    ((u.head n).cylinder = none ∨ st = .empty ∨ st = .disabled ∨ st = .assigned ∨ st = .done ∨
        st = .faulted → exec (.pressure src seq bar) s = .next (u.count .stray 1)) ∧
    (∀ i, (u.head n).cylinder = some i →
      let l := u.limits i
      let pmax := l.pt + l.pt * l.margin / 1000
      let raise := fun (v : State) => v.modRecord i fun r =>
        let y := r.hydro.getD Hydro.fresh
        { r with hydro := some { y with peak := max y.peak p } }
      let vent := fun (v : State) => (v.send (v.headNode n) (.vent (v.refOf i))).modHead n fun h =>
        { h with state := .venting, timer := some ⟨.vent, u.config.ventTimeout * 1000⟩ }
      let burst := fun (v : State) =>
        let v := v.modHead n fun h => { h with timer := none }
        let v := v.modRecord i fun r => { r with hydro := some { r.hydro.getD Hydro.fresh with
          verdict := .fail, date := u.mga.date } }
        vent ((v.addFinding i .hydroOverpressure).modHead n fun h => { h with fixed := true, retest := .none })
      let ramping := fun (v : State) =>
        if pmax < p then burst (raise v)
        else if l.pt ≤ p then (raise v).modHead n fun h =>
          { h with state := .holding, window := [], timer := some ⟨.hold, l.hold * 1000⟩ }
        else raise v
      (st = .loaded → exec (.pressure src seq bar) s = .next (ramping (u.modHead n fun h =>
        { h with state := .pressurizing, timer := some ⟨.ramp, u.config.rampTimeout * 1000⟩ }))) ∧
      (st = .pressurizing → exec (.pressure src seq bar) s = .next (ramping u)) ∧
      (st = .holding → exec (.pressure src seq bar) s = .next (
        if pmax < p then burst (raise u)
        else if p < l.pt - l.tolerance then (raise u).invalidPressurised n i
        else raise u)) ∧
      (st = .venting → exec (.pressure src seq bar) s = .next (
        if l.ventThreshold < p then raise u
        else
          let v := (raise u).modHead n fun h => { h with timer := none }
          if (u.head n).fixed then v.enterDone n i
          else if (u.head n).retest ≠ .none then v.issueTest n i
          else v.modHead n fun h =>
            { h with state := .settling, timer := some ⟨.settle, l.settle * 1000⟩ })) ∧
      (st = .settling ∨ st = .measuring → exec (.pressure src seq bar) s = .next (raise u)))

/-- R17, R81, R85, R91, R93, R94: an EXPANSION sample, a negative one taken as 0 and at most 30000: in HOLDING
it enters the window of four; in SETTLING it is discarded; in MEASURING it is the permanent expansion, whose
ratio to the total one, at most 1000, with the elastic limit gives the verdict: FAIL with HYDRO_FAIL; PASS,
which makes a PENDING entry with no HOLD or CONDEMN finding REQUALIFIED; or, on a degraded stream, an INVALID.
Elsewhere it is stray, and takes a head in LOADED to PRESSURIZING first. -/
def Obligations.ExpansionSamplesGiveTheVerdict : Prop :=
  ∀ (s u : State) (src : Node) (seq : Byte) (value : Half) (e : Nat),
    s.hears src seq (.expansion value) e u → (u.station e).role = .head →
    let n := (u.station e).head
    let st := (u.head n).state
    let x := min value.toInt.toNat 30000
    ((u.head n).cylinder = none ∨ st = .empty ∨ st = .disabled ∨ st = .assigned ∨ st = .done ∨
        st = .faulted ∨ st = .pressurizing ∨ st = .venting →
      exec (.expansion src seq value) s = .next (u.count .stray 1)) ∧
    (∀ i, (u.head n).cylinder = some i →
      (st = .loaded → exec (.expansion src seq value) s = .next ((u.modHead n fun h =>
        { h with state := .pressurizing,
                 timer := some ⟨.ramp, u.config.rampTimeout * 1000⟩ }).count .stray 1)) ∧
      (st = .holding → exec (.expansion src seq value) s = .next (u.modHead n fun h =>
        { h with window := if h.window.length < 4 then h.window ++ [x]
                           else (h.window ++ [x]).drop (h.window.length - 3) })) ∧
      (st = .settling → exec (.expansion src seq value) s = .next u) ∧
      (st = .measuring →
        let l := u.limits i
        let et := ((u.record i).hydro.getD Hydro.fresh).et
        let ratio := min (1000 * x / et) 1000
        let v := u.modHead n fun h => { h with timer := none }
        let v := v.modRecord i fun r => { r with hydro := some { r.hydro.getD Hydro.fresh with
          ep := x, ratio := ratio } }
        let fix := fun (verdict : Verdict) (v : State) => v.modRecord i fun r =>
          { r with hydro := some { r.hydro.getD Hydro.fresh with verdict := verdict, date := u.mga.date } }
        let done := fun (v : State) =>
          State.enterDone n i (v.modHead n fun h => { h with fixed := true, retest := .none })
        let pass := ratio ≤ l.permLimit ∧ (l.elasticLimit = 0 ∨ et ≤ l.elasticLimit)
        (¬ pass → exec (.expansion src seq value) s =
          .next (done ((fix .fail v).addFinding i .hydroFail))) ∧
        (pass → (u.head n).degradedSeen = true →
          exec (.expansion src seq value) s = .next (v.invalidMeasuring n i)) ∧
        (pass → (u.head n).degradedSeen = false →
          exec (.expansion src seq value) s = .next ((done (fix .pass v)).modRecord i fun r =>
            if r.disposition = .pending ∧
                ∀ f ∈ r.findings, f.severity u.config.unknownOwner = .note then
              { r with disposition := .requalified }
            else r))))

/-- R83, R86, R89 to R91, R94: the expiries of a head's step timers. Ramp: INVALID. Hold: the total expansion
is the mean of the four values, rounded down; with fewer, or a mean of 0, INVALID; else VENT. Vent: HEAD_FAULT
added and noticed, the verdict INVALID unless FAIL, outcome fixed, faulted mark, DONE. Settle: MEASURING.
Measure: INVALID. An INVALID is retried while the class allows it, by VENT from pressure and by TEST from
MEASURING; else it is final, with HYDRO_INVALID. The expiry of a timer that does not run has no effect
(log 3). -/
def Obligations.StepTimersAdvanceTheTest : Prop :=
  ∀ (s : State) (head : Fin 4),
    let n := head.val
    let v := s.setOut []
    let runs := fun (k : StepKind) => ∃ left, (s.head n).timer = some ⟨k, left⟩
    (∀ i, (s.head n).cylinder = some i →
      (runs .ramp → exec (.rampTimerExpiry head) s = .next (v.invalidPressurised n i)) ∧
      (runs .hold →
        let w := (s.head n).window
        let et := w.sum / 4
        let kept := v.modRecord i fun r => { r with hydro := some { r.hydro.getD Hydro.fresh with et := et } }
        (w.length < 4 → exec (.holdTimerExpiry head) s = .next (v.invalidPressurised n i)) ∧
        (4 ≤ w.length → et = 0 → exec (.holdTimerExpiry head) s = .next (kept.invalidPressurised n i)) ∧
        (4 ≤ w.length → et ≠ 0 → exec (.holdTimerExpiry head) s = .next
          ((kept.send (s.headNode n) (.vent (s.refOf i))).modHead n fun h =>
            { h with state := .venting, timer := some ⟨.vent, s.config.ventTimeout * 1000⟩ }))) ∧
      (runs .vent →
        let w := (v.addFinding i .headFault).modRecord i fun r =>
          let y := r.hydro.getD Hydro.fresh
          { r with hydro := some { y with
            verdict := if y.verdict = .fail then .fail else .invalid
            date := if y.verdict = .none then s.mga.date else y.date } }
        let w := w.modHead n fun h =>
          { h with fixed := true, retest := .none, faulted := true, timer := none }
        exec (.ventTimerExpiry head) s = .next ((w.notify .headFault n).enterDone n i)) ∧
      (runs .settle → exec (.settleTimerExpiry head) s = .next (v.modHead n fun h =>
        { h with state := .measuring, timer := some ⟨.measure, s.config.measureTimeout * 1000⟩ })) ∧
      (runs .measure → exec (.measureTimerExpiry head) s = .next (v.invalidMeasuring n i))) ∧
    (¬ runs .ramp → exec (.rampTimerExpiry head) s = .next v) ∧
    (¬ runs .hold → exec (.holdTimerExpiry head) s = .next v) ∧
    (¬ runs .vent → exec (.ventTimerExpiry head) s = .next v) ∧
    (¬ runs .settle → exec (.settleTimerExpiry head) s = .next v) ∧
    (¬ runs .measure → exec (.measureTimerExpiry head) s = .next v) ∧
    (∀ i,
      let again := ((s.record i).hydro.getD Hydro.fresh).retests < (s.limits i).maxRetests
      let vent := fun (v : State) => (v.send (v.headNode n) (.vent (v.refOf i))).modHead n fun h =>
        { h with state := .venting, timer := some ⟨.vent, s.config.ventTimeout * 1000⟩ }
      let automatic := s.modHead n fun h => { h with retest := .automatic }
      let final :=
        let v := s.modHead n fun h => { h with timer := none }
        let v := v.modRecord i fun r => { r with hydro := some { r.hydro.getD Hydro.fresh with
          verdict := .invalid, date := s.mga.date } }
        (v.addFinding i .hydroInvalid).modHead n fun h => { h with fixed := true, retest := .none }
      s.invalidPressurised n i = (if again then vent automatic else vent final) ∧
      s.invalidMeasuring n i = (if again then automatic.issueTest n i else final.enterDone n i))

/-- R12, R14, R76, R96, R97: an UNLOADED sends the cylinder of a head to XQ: on its reservation from DONE with
RELEASE sent, else if there is room, its claim withdrawn; before DONE the test ends INVALID unless its outcome
is fixed, and from ASSIGNED the loader becomes IDLE. The head then becomes FAULTED if marked, else EMPTY and
offered to the loader; that from ASSIGNED the arbiter checks only then, and may choose that head, is the
model's choice (log 36). A HEAD_FAULT is noticed; without a cylinder the head becomes FAULTED; with one
HEAD_FAULT is added, the verdict INVALID unless FAIL or NOT_TESTED, VENT sent from the states under pressure,
and the head is marked and DONE. -/
def Obligations.UnloadsAndHeadFaultsEndTheTest : Prop :=
  ∀ (s u : State) (src : Node) (seq : Byte) (e : Nat), (u.station e).role = .head →
    let n := (u.station e).head
    let h := u.head n
    let vacate := fun (v : State) => if (v.head n).faulted then
        v.modHead n fun _ => { HeadRecord.reset with state := .faulted }
      else (v.modHead n fun _ => HeadRecord.reset).assignLoader
    let idle := fun (v : State) => { v with tbc := { v.tbc with loader := Loader.reset } }
    (s.hears src seq .unloaded e u →
      (h.cylinder = none → exec (.unloaded src seq) s = .next (u.count .stray 1)) ∧
      (∀ i, h.cylinder = some i →
        (h.state = .done → h.release = .sent →
          let v := u.modRecord i fun r => { r with reservation := none }
          exec (.unloaded src seq) s = .next (vacate (State.setPlace i .finish
            { v with trk := { v.trk with xq := v.trk.xq ++ [i] } }))) ∧
        (h.state = .done → h.release = .claimed → exec (.unloaded src seq) s = .next (vacate
          (State.arriveXq i { u with trk := { u.trk with
            claims := u.trk.claims.filter fun c => c.holder.entry != some i } }))) ∧
        (h.state ≠ .done →
          let v := u.modHead n fun h => { h with timer := none }
          let v := if h.state = .assigned then idle v else v
          let v := if h.fixed then v else (v.modRecord i fun r =>
            { r with hydro := some { r.hydro.getD Hydro.fresh with
              verdict := .invalid, date := u.mga.date } }).addFinding i .hydroInvalid
          let v := vacate (v.arriveXq i)
          exec (.unloaded src seq) s = .next (if h.state = .assigned then v.assignLoader else v)))) ∧
    (s.hears src seq .headFault e u →
      let v := u.notify .headFault n
      (h.cylinder = none → exec (.headFault src seq) s = .next (v.modHead n fun h => { h with state := .faulted })) ∧
      (∀ i, h.cylinder = some i →
        let w := (v.addFinding i .headFault).modRecord i fun r =>
          let y := r.hydro.getD Hydro.fresh
          { r with hydro := some { y with
            verdict := if y.verdict = .fail ∨ y.verdict = .notTested then y.verdict else .invalid
            date := if y.verdict = .none then u.mga.date else y.date } }
        let w := w.modHead n fun h => { h with timer := none }
        let w := if h.state = .assigned then (idle w).assignLoader else w
        let w := if h.state = .pressurizing ∨ h.state = .holding ∨ h.state = .venting then
            w.send (w.headNode n) (.vent (w.refOf i))
          else w
        let w := w.modHead n fun h =>
          { h with fixed := true, retest := .none, faulted := true, timer := none }
        exec (.headFault src seq) s = .next (w.enterDone n i)))

/-! ## The finish cell -/

/-- R105 to R114: a TAG at the stamping cell whose identity is that of the slot's content is a repeat: once the
stage is SENT the held image's orders are built again, before that nothing happens. Any other TAG moves an
occupied slot's content to GQ as UNCONFIRMED, on its reservation or else if there is room; then takes into
the slot the matching entry of XQ (with doubt unless it is the head), else the matching cylinder of a head in
DONE (an implicit unload), else the head of XQ after a NOREAD or when that head has no identity (with doubt),
else a stranger marker, counted and noticed; doubts an entry read from a DEGRADED stream; and asks for a GQ
place, at which the image is composed, or else lodges a claim. -/
def Obligations.StampTagsFillTheSlot : Prop :=
  ∀ (s u : State) (src : Node) (seq : Byte) (tag : TagRead) (e : Nat),
    s.hears src seq (.tag tag) e u → (u.station e).role = .stamp →
    let read := readIdentity tag
    let agrees := fun (v : State) (i : Nat) (id : Identity) =>
      (v.record i).identity.any fun x => x.serial == id.serial && x.owner == id.owner
    let again := match read, u.fcu.slot.content with
      | some id, .entry i => agrees u i id
      | some id, .marker (some m) => m == (id.serial, id.owner)
      | _, _ => false
    (again = true → ∀ img, u.fcu.slot.image = some img →
      (u.fcu.slot.stage = .sent → exec (.stampTag src seq tag) s = .next ((List.range img.segments).foldl
        (fun v k => v.send (u.roleNode .stamp) (.stamp (match u.fcu.slot.content with
            | .entry i => some (u.refOf i)
            | _ => none) k img.segments img.strike ((img.columns.drop (40 * k)).take 40))) u)) ∧
      (u.fcu.slot.stage ≠ .sent → exec (.stampTag src seq tag) s = .next u)) ∧
    (again = true → u.fcu.slot.image = none → exec (.stampTag src seq tag) s = .next u) ∧
    (again = false →
      let doubt := decide ((u.stream e).state = .degraded)
      let emptied : State → State := fun v => { v with fcu := { v.fcu with slot := StampSlot.reset } }
      let unclaimed : State → State := fun v => { v with trk := { v.trk with
        claims := v.trk.claims.filter fun c => c.holder != .stampSlot } }
      let toGq : Item → State → State := fun it v => { v with trk := { v.trk with gq := v.trk.gq ++ [it] } }
      let overtaken : State := match u.fcu.slot.content with
        | .empty => u
        | .entry i =>
          let v := (u.modRecord i fun r => { r with stampStatus := .unconfirmed }).addFinding i .stampUnconfirmed
          if u.fcu.slot.stage = .sent then
            ((toGq (.entry i)) ((emptied v).modRecord i fun r => { r with reservation := none })).setPlace i .gateB
          else
            let v := emptied (unclaimed v)
            if v.trk.gq.length + v.reserved .gq < 4 then (toGq (.entry i) v).setPlace i .gateB
            else (((v.closeLost i).count .overrun 1).addCause .overrun).closeAndNotify .overrun i
        | .marker _ =>
          if u.fcu.slot.stage = .sent then toGq .marker (emptied u)
          else
            let v := emptied (unclaimed u)
            if v.trk.gq.length + v.reserved .gq < 4 then toGq .marker v
            else ((v.count .overrun 1).addCause .overrun).notify .overrun u.trk.gq.length
      let intoSlot := fun (i : Nat) (v : State) => State.setPlace i .stamp
        { v with fcu := { v.fcu with slot := { v.fcu.slot with content := .entry i } } }
      let fromXq := fun (i : Nat) (v : State) =>
        (intoSlot i { v with trk := { v.trk with xq := v.trk.xq.erase i } }).grant .xq
      let stranger := fun (v : State) =>
        (State.count .strangers 1 { v with fcu := { v.fcu with slot := { v.fcu.slot with
          content := .marker (read.map fun id => (id.serial, id.owner)) } } }).notify .stranger
            (((v.roleNode .stamp).map BitVec.toNat).getD 0)
      let byOrder := fun (v : State) => match read, v.trk.xq with
        | none, i :: _ => fromXq i (v.addFinding i .identityDoubt)
        | some _, i :: _ => if (v.record i).identity = none then fromXq i (v.addFinding i .identityDoubt)
            else stranger v
        | _, [] => stranger v
      let v := overtaken
      let placed : State := match read with
        | none => byOrder v
        | some id =>
          match v.trk.xq.find? fun i => agrees v i id with
          | some i => if v.trk.xq.head? = some i then fromXq i v else fromXq i (v.addFinding i .identityDoubt)
          | none =>
            match v.tbc.heads.findIdx? fun (h : HeadRecord) =>
                h.state == .done && h.cylinder.any fun i => agrees v i id with
            | some n =>
              match (v.head n).cylinder with
              | some i =>
                let w : State := match (v.head n).release with
                  | .sent => v.releaseReservation i
                  | .claimed => { v with trk := { v.trk with
                      claims := v.trk.claims.filter fun c => c.holder.entry != some i } }
                  | .none => v
                let w := intoSlot i w
                let w := if (w.head n).faulted then
                    w.modHead n fun _ => { HeadRecord.reset with state := .faulted }
                  else (w.modHead n fun _ => HeadRecord.reset).assignLoader
                w.addFinding i .implicitPass
              | none => byOrder v
            | none => byOrder v
      let w : State := match placed.fcu.slot.content with
        | .entry i => if doubt then placed.addFinding i .identityDoubt else placed
        | _ => placed
      exec (.stampTag src seq tag) s = .next (
        if w.trk.gq.length + w.reserved .gq < 4 then w.takeStampPlace
        else { w with
          trk := { w.trk with claims := w.trk.claims ++ [⟨.gq, .stampSlot⟩] }
          fcu := { w.fcu with slot := { w.fcu.slot with stage := .claimed } } }))

/-- R42, R46, R112 to R118: a taken GQ place is the slot's composing event: a REQUALIFIED entry with a PASS
verdict takes its owner's pass template and a CONDEMNED one the condemn template, with status SENT; any other
gets no columns, with status SKIPPED; a failed composition adds STAMP_COMPOSE_FAIL and gets none; a stranger
marker gets one STAMP of no columns. MONTH and YEAR yield two digits of the test date, or of the current date
where there is none, PLANT the codes of the effective plant mark other than 63, PRESSURE a tenth of Pt without
a leading zero, SERIAL_TAIL the last four digits; a value that is absent fails the composition. An image has
the columns of its glyphs, one blank one between glyphs, and the SPACE counts, at most 96; its segments of at
most 40 columns carry it whole, in order. -/
def Obligations.StampImagesFollowTheirTemplate : Prop :=
  ∀ s : State,
    (∀ (r : TrackRecord) (es : List Element) (cols : List Column),
      s.compose r es = some cols ↔ es ≠ [] ∧ cols.length ≤ 96 ∧
        ∃ ps, s.yieldsAll r es = some ps ∧ cols = s.columnsOf ps ∧ (∃ c, Piece.glyph c ∈ ps) ∧
          ∀ c, Piece.glyph c ∈ ps → (s.glyph c).width ≠ 0) ∧
    (∀ (r : TrackRecord) (es : List Element) (ps : List Piece), s.yieldsAll r es = some ps ↔
      ∃ parts : List (List Piece), es.map (fun e => s.yields r e) = parts.map some ∧ ps = parts.flatten) ∧
    (∀ r : TrackRecord,
      let date := match r.hydro with
        | some h => if h.date.isSome then h.date else s.mga.date
        | none => s.mga.date
      let two := fun n : Nat => [Piece.glyph (n / 10 % 10), .glyph (n % 10)]
      let mark := match s.mga.override with
        | some m => m
        | none => s.config.plantMark
      (∀ c, s.yields r (.glyph c) = some [.glyph c]) ∧ (∀ n, s.yields r (.space n) = some [.blank n]) ∧
      s.yields r .month = date.map (fun d => two d.month) ∧ s.yields r .year = date.map (fun d => two d.year) ∧
      s.yields r .plant = some ((mark.filter (· ≠ 63)).map Piece.glyph) ∧
      s.yields r .pressure = r.classSnap.map (fun l =>
        if l.pt < 100 then [.glyph (l.pt / 10)] else [.glyph (l.pt / 100), .glyph (l.pt / 10 % 10)]) ∧
      s.yields r .serialTail = r.identity.map (fun i => [.glyph (i.serial / 1000 % 10),
        .glyph (i.serial / 100 % 10), .glyph (i.serial / 10 % 10), .glyph (i.serial % 10)])) ∧
    (∀ ps : List Piece, s.columnsOf ps = (List.range ps.length).flatMap fun k : Nat =>
      match ps[k]? with
      | some (Piece.glyph c) => (s.glyph c).columns.take (s.glyph c).width ++
          (if (ps.drop (k + 1)).any Piece.isGlyph then [(0 : Column)] else [])
      | some (Piece.blank n) => List.replicate n (0 : Column)
      | none => []) ∧
    (∀ ps : List Piece, (∀ c, Piece.glyph c ∈ ps → (s.glyph c).legal) →
      (s.columnsOf ps).length = (ps.map fun p => match p with
          | .glyph c => (s.glyph c).width
          | .blank n => n).sum + (ps.countP Piece.isGlyph - 1)) ∧
    (∀ cols : List Column, cols.length ≤ 96 →
      segmentCount cols.length = max 1 ((cols.length + 39) / 40) ∧
      (List.range (segmentCount cols.length)).flatMap (fun k => segmentColumns k cols) = cols ∧
        ∀ k, (segmentColumns k cols).length ≤ 40) ∧
    (∀ read, s.fcu.slot.content = .marker read →
      s.takeStampPlace = State.send (s.roleNode .stamp) (.stamp none 0 1 0 [])
        { s with fcu := { s.fcu with slot := { s.fcu.slot with stage := .sent, image := some ⟨[], 1, 0⟩ } } }) ∧
    (∀ i, s.fcu.slot.content = .entry i →
      let v := s.modRecord i fun r => { r with reservation := some .gq }
      let v : State := { v with fcu := { v.fcu with slot := { v.fcu.slot with stage := .sent } } }
      let r := s.record i
      let strike := (r.classSnap.map ClassLimits.strike).getD 0
      let held := fun (cols : List Column) (v : State) =>
        (List.range (segmentCount cols.length)).foldl (fun v k => v.send (s.roleNode .stamp)
            (.stamp (some (s.refOf i)) k (segmentCount cols.length) strike (segmentColumns k cols)))
          { v with fcu := { v.fcu with slot := { v.fcu.slot with
            image := some ⟨cols, segmentCount cols.length, strike⟩ } } }
      let status := fun (st : StampStatus) (v : State) => v.modRecord i fun r => { r with stampStatus := st }
      let image := if r.disposition = .condemned then
          some (s.compose r (s.tables.template.getD s.config.condemn []))
        else if r.disposition = .requalified ∧ r.hydro.map Hydro.verdict = some .pass then
          some (r.ownerSnap.bind fun o => s.compose r (s.tables.template.getD o.passTemplate []))
        else none
      (∀ cols, image = some (some cols) → s.takeStampPlace = status .sent (held cols v)) ∧
      (image = some none →
        s.takeStampPlace = status .skipped (held [] (v.addFinding i .stampComposeFail))) ∧
      (image = none → s.takeStampPlace = status .skipped (held [] v)))

/-- R12, R119, R120: once the slot's stage is SENT, STAMP_DONE makes a SENT status DONE and keeps any other, and
STAMP_FAULT makes it FAULT with the finding; the content then joins GQ on its reservation, an entry with
location GATE_B, and the slot is empty. With an empty slot, or before SENT, either is stray. -/
def Obligations.StampOutcomesMoveTheContentToGateB : Prop :=
  ∀ (s u : State) (src : Node) (seq : Byte) (ref : WireRef) (e : Nat), (u.station e).role = .stamp →
    let slot := u.fcu.slot
    let moved : Item → State → State := fun it v => { v with
      fcu := { v.fcu with slot := StampSlot.reset }, trk := { v.trk with gq := v.trk.gq ++ [it] } }
    let free := fun (r : TrackRecord) => { r with reservation := none }
    (s.hears src seq (.stampDone ref) e u →
      (slot.content = .empty ∨ slot.stage ≠ .sent →
        exec (.stampDone src seq ref) s = .next (u.count .stray 1)) ∧
      (∀ i, slot.content = .entry i → slot.stage = .sent →
        exec (.stampDone src seq ref) s = .next (State.setPlace i .gateB (moved (.entry i)
          (u.modRecord i fun r => free (if r.stampStatus = .sent then { r with stampStatus := .done } else r))))) ∧
      (∀ m, slot.content = .marker m → slot.stage = .sent →
        exec (.stampDone src seq ref) s = .next (moved .marker u))) ∧
    (s.hears src seq (.stampFault ref) e u →
      (slot.content = .empty ∨ slot.stage ≠ .sent →
        exec (.stampFault src seq ref) s = .next (u.count .stray 1)) ∧
      (∀ i, slot.content = .entry i → slot.stage = .sent →
        exec (.stampFault src seq ref) s = .next (State.setPlace i .gateB (moved (.entry i)
          (u.modRecord i fun r => free
            ({ r with stampStatus := .fault }.addFinding u.config.unknownOwner .stampFault))))) ∧
      (∀ m, slot.content = .marker m → slot.stage = .sent →
        exec (.stampFault src seq ref) s = .next (moved .marker u)))

/-- R65, R68 to R71, R121, R123, R124: gate B serves the head of GQ: FILL for REQUALIFIED, SCRAP for CONDEMNED,
BENCH for any other entry and for a marker; the same arrival number is answered again, and another one makes
the served item pass on its ordered route (an entry with IMPLICIT_PASS) and is then taken afresh; the number
of the last passage, and an empty GQ, are stray. At PASSED the item leaves GQ, an entry with the route
recorded for the closing list, and the freed place is offered; another route than the ordered one adds
ROUTE_DEVIATION to an entry and is noticed for a marker. A code of no route, and a PASSED with none pending,
are stray. -/
def Obligations.GateBServesTheHeadOfItsQueue : Prop :=
  ∀ (s u : State) (src : Node) (seq : Byte) (e : Nat), (u.station e).role = .gateB →
    let g := u.fcu.gate
    let routeOf := fun (v : State) (it : Item) => match it with
      | .entry i => if (v.record i).disposition = .requalified then RouteB.fill
          else if (v.record i).disposition = .condemned then .scrap else .bench
      | .marker => .bench
    let refOf := fun (v : State) (it : Item) => match it with
      | .entry i => some (v.refOf i)
      | .marker => none
    let leave := fun (it : Item) (route : RouteB) (v : State) =>
      let v := match it with
        | .entry i => v.modRecord i fun r => { r with routeB := some route }
        | .marker => v
      let v : State := { v with
        trk := { v.trk with gq := v.trk.gq.tail }
        fcu := { v.fcu with gate := { state := .idle, item := none, stored := none, ordered := none,
                                      last := v.fcu.gate.stored } } }
      let v := match it with
        | .entry i => State.serveClosing (State.setPlace i .closing
            { v with trk := { v.trk with closing := v.trk.closing ++ [i] } })
        | .marker => v
      v.grant .gq
    (∀ arrival, s.hears src seq (.atGate arrival) e u →
      let idle := fun (v : State) =>
        if v.fcu.gate.last = some arrival then v.count .stray 1
        else match v.trk.gq with
          | [] => v.count .stray 1
          | it :: _ =>
            State.send (v.roleNode .gateB) (.routeB (routeOf v it) (refOf v it) arrival) { v with
              fcu := { v.fcu with gate := { v.fcu.gate with
                state := .pending, item := some it, stored := some arrival, ordered := some (routeOf v it) } } }
      (g.state ≠ .pending → exec (.atGate src seq arrival) s = .next (idle u)) ∧
      (∀ it route, g.state = .pending → g.item = some it → g.ordered = some route →
        (g.stored = some arrival → exec (.atGate src seq arrival) s =
          .next (u.send (u.roleNode .gateB) (.routeB route (refOf u it) arrival))) ∧
        (g.stored ≠ some arrival → exec (.atGate src seq arrival) s = .next (idle (leave it route
          (match it with
            | .entry i => u.addFinding i .implicitPass
            | .marker => u)))))) ∧
    (∀ route ref, s.hears src seq (.passed route ref) e u →
      (g.state ≠ .pending ∨ 2 < route.toNat →
        exec (.passed src seq route ref) s = .next (u.count .stray 1)) ∧
      (∀ it ordered taken, g.state = .pending → g.item = some it → g.ordered = some ordered →
        route.toNat = RouteB.code taken →
        (taken = ordered → exec (.passed src seq route ref) s = .next (leave it taken u)) ∧
        (taken ≠ ordered → exec (.passed src seq route ref) s = .next (leave it taken (match it with
          | .entry i => u.addFinding i .routeDeviation
          | .marker => u.notify .stranger (((u.roleNode .gateB).map BitVec.toNat).getD 0))))))

/-! ## Requests -/

/-- R180 to R184, R187, R200, R203 to R205: the requests any node may send. STATUS gives a section: PART, 21 bytes,
LINE, 33 bytes, and STATIONS, 17 bytes, each byte as laid out; SELECT sets the pointer to an index below the
table's size; READ gives the entry at the pointer, which advances; TRACK_READ gives an entry of the track table
in 45 bytes, each field at its place in the stream of 359 bits; COUNTERS a group of the counters, each in 4
bytes. A section, table or group that does not exist is BAD_REQUEST, an index out of range RANGE, and a refused
request changes nothing but the reply queue. A reply carries the request's kind and sequence number, its code
and the data. The counters stand in the order of R187. Where a layout states no value for an absent part, what
is sent is left free (log 8). That PART counts the replies before its own joins, and that LINE gives each
queue's occupancy followed by its reservations, are the model's choices (logs 32 and 33). -/
def Obligations.ReadingRequestsAnswerWithTheState : Prop :=
  (∀ (s : State) (src : Node) (seq : Byte), s.hearsRequest src →
    let u := s.setOut []
    let used := u.setFree (s.free + 1)
    (∀ part : Byte,
      (part = 0 → exec (.status src seq part) s = .next (used.answered src 1 seq .done (0 :: s.partSection))) ∧
      (part = 1 → exec (.status src seq part) s = .next (used.answered src 1 seq .done (1 :: s.lineSection))) ∧
      (part = 2 → exec (.status src seq part) s =
        .next (used.answered src 1 seq .done (2 :: s.stationsSection))) ∧
      (2 < part.toNat → exec (.status src seq part) s = .next (u.answered src 1 seq .badRequest []))) ∧
    (∀ table index : Byte,
      (∀ t, table.toNat = TableName.code t → index.toNat < t.size → exec (.select src seq table index) s =
        .next (State.answered src 2 seq .done [table, index]
          { u with mga := { u.mga with table := t, index := index.toNat } })) ∧
      (∀ t, table.toNat = TableName.code t → t.size ≤ index.toNat →
        exec (.select src seq table index) s = .next (u.answered src 2 seq .range [])) ∧
      (5 < table.toNat → exec (.select src seq table index) s = .next (u.answered src 2 seq .badRequest []))) ∧
    (s.mga.index < s.mga.table.size → exec (.read src seq) s =
      .next (State.answered src 3 seq .done
        (byte s.mga.table.code :: byte s.mga.index :: s.tableEntry s.mga.table s.mga.index)
        { u with mga := { u.mga with index := s.mga.index + 1 } })) ∧
    (s.mga.table.size ≤ s.mga.index → exec (.read src seq) s = .next (u.answered src 3 seq .range [])) ∧
    (∀ index : Byte,
      (index.toNat < 80 → exec (.trackRead src seq index) s = .next (used.answered src 5 seq .done
        ((s.entry index.toNat).bytes (Config.absentField s.free)))) ∧
      (80 ≤ index.toNat → exec (.trackRead src seq index) s = .next (u.answered src 5 seq .range []))) ∧
    (∀ group : Byte,
      let word := fun n : Nat => [byte (n / 2 ^ 24), byte (n / 2 ^ 16), byte (n / 2 ^ 8), byte n]
      (group = 0 → exec (.counters src seq group) s =
        .next (u.answered src 6 seq .done (0 :: (s.mga.counters.take 7).flatMap word))) ∧
      (group = 1 → exec (.counters src seq group) s =
        .next (u.answered src 6 seq .done (1 :: ((s.mga.counters.drop 7).take 7).flatMap word))) ∧
      (group = 2 → exec (.counters src seq group) s =
        .next (u.answered src 6 seq .done (2 :: (s.mga.counters.drop 14).flatMap word))) ∧
      (2 < group.toNat → exec (.counters src seq group) s = .next (u.answered src 6 seq .badRequest [])))) ∧
  -- the bytes of a reply (R180, R203), and the order of the counters (R187)
  (∀ r : Reply, r.payload = [r.kind, r.seq, byte r.code.code] ++ r.data) ∧
  (∀ (s : State) (k : Nat) (c : Counter), ([.badCheck, .longFrame, .unknownKind, .requestsDropped, .ordersLost,
      .ordersDropped, .eventsDropped, .stale, .streamGaps, .unattributed, .stray, .overrun, .strangers, .divergences,
      .proveBitErrors, .proveFramesLost, .closedPending, .closedReturned, .closedRequalified, .closedHold,
      .closedCondemned, .closedLost] : List Counter)[k]? = some c → s.counter c = s.mga.counters.getD k 0) ∧
  -- the codes of R200 and R204
  ([TableName.station, .cls, .owner, .recallList, .glyph, .template].map (fun t => (t.code, t.size)) =
      [(0, 16), (1, 64), (2, 128), (3, 32), (4, 64), (5, 16)] ∧
    [Role.transparent, .active, .shadow].map Role.code = [0, 1, 2] ∧
    [Disposition.pending, .returned, .requalified, .hold, .condemned, .lost].map Disposition.code =
      [0, 1, 2, 3, 4, 5] ∧
    [Verdict.none, .pass, .fail, .invalid, .notTested].map Verdict.code = [0, 1, 2, 3, 4] ∧
    [StampStatus.none, .sent, .done, .fault, .unconfirmed, .skipped].map StampStatus.code =
      [0, 1, 2, 3, 4, 5] ∧
    [Location.free, .intake, .gateA, .feed, .head 0, .head 1, .head 2, .head 3, .finish, .stamp, .gateB,
      .closing].map Location.code = [0, 1, 2, 3, 4, 5, 6, 7, 8, 9, 10, 11] ∧
    [HeadState.empty, .disabled, .assigned, .loaded, .pressurizing, .holding, .venting, .settling, .measuring,
      .done, .faulted].map HeadState.code = [0, 1, 2, 3, 4, 5, 6, 7, 8, 9, 10] ∧
    [ReplyCode.done, .doneClamped, .notReady, .refusedSource, .wrongState, .badRequest, .range, .busy,
      .conflict].map ReplyCode.code = [0, 1, 2, 3, 4, 5, 6, 7, 8] ∧
    [ResetCause.powerOn, .pin, .restart].map ResetCause.code = [0, 1, 2] ∧
    [Checker.off, .seeking, .locked].map Checker.code = [0, 1, 2] ∧
    [Presence.unknown, .present, .absent].map Presence.code = [0, 1, 2] ∧
    [GateState.idle, .deferred, .pending].map GateState.code = [0, 1, 2] ∧
    [Stage.none, .claimed, .sent].map Stage.code = [0, 1, 2] ∧
    [StreamState.new, .synced, .degraded].map StreamState.code = [0, 1, 2] ∧
    [JamState.idle, .qualifying, .jammed, .clearing].map JamState.code = [0, 1, 2, 3] ∧
    [Due.unknown, .due, .notDue].map Due.code = [0, 1, 2] ∧
    [Material.steel, .aluminium, .composite].map Material.code = [0, 1, 2]) ∧
  -- the three sections
  (∀ s : State,
    let c := s.config
    let absent := fun (n : Option Nat) => byte (n.getD 255)
    s.partSection = [
        byte (64 * (s.rol.role.map Role.code).getD 0 + 32 * flag (s.rpt.loop == .local) + 8 * s.cfl.cause.code +
          4 * flag s.cfl.defaulted + 2 * flag s.rpt.proving.on + flag s.mga.override.isSome),
        byte c.own.toNat, byte c.partner.toNat, byte c.manager.toNat, byte c.recorder.toNat,
        byte (64 * c.startRole.code + 32 * flag c.autoTakeover + 8 * s.rpt.proving.checker.code +
          4 * flag s.rol.unfit),
        absent (s.mga.date.map Date.year),
        byte ((s.mga.date.map Date.month).getD (Config.statusField s.free 1))] ++
      (s.mga.override.getD c.plantMark).map byte ++
      [byte s.rpt.orders.length, byte s.rpt.replies.length, byte s.rpt.notices.length,
        byte s.rpt.outstanding.length, byte s.rol.expectations.length,
        byte (64 * s.rol.partner.presence.code + 16 * (s.rol.partner.role.map Role.code).getD 0 +
          4 * (match s.rol.partner.unfit with
            | none => 0
            | some false => 1
            | some true => 2)),
        absent s.rol.partner.occupancy, byte s.rol.divergence] ∧
    (let gate := fun (state : GateState) (item : Option Item) (stored last : Option Byte) =>
        [byte (64 * state.code + 32 * flag (item == some .marker) + 16 * flag stored.isSome +
            8 * flag last.isSome),
          absent (match item with
            | some (.entry i) => some i
            | _ => none),
          stored.getD 255, last.getD 255]
      let jams := fun (first : Nat) =>
        byte (((List.range 8).map fun e => 2 ^ (7 - e) * flag (s.lsc.halt.jams.getLsbD (first + e))).sum)
      s.lineSection = [byte s.occupancy, byte s.trk.iq.length, 0, byte s.trk.fq.length, byte (s.reserved .fq),
          byte s.trk.xq.length, byte (s.reserved .xq), byte s.trk.gq.length, byte (s.reserved .gq),
          byte s.trk.closing.length] ++
        gate s.scr.gate.state s.scr.gate.item s.scr.gate.stored s.scr.gate.last ++
        gate s.fcu.gate.state s.fcu.gate.item s.fcu.gate.stored s.fcu.gate.last ++
        [byte (64 * (match s.fcu.slot.content with
            | .empty => 0
            | .entry _ => 1
            | .marker _ => 2) + 16 * s.fcu.slot.stage.code),
          absent (match s.fcu.slot.content with
            | .entry i => some i
            | _ => none),
          byte (128 * flag s.tbc.loader.serving.isSome +
            32 * (s.tbc.loader.serving.getD (Config.statusField s.free 0) % 4))] ++
        s.tbc.heads.flatMap (fun h => [byte (16 * h.state.code + 8 * flag h.faulted), absent h.cylinder]) ++
        [byte (128 * flag s.lsc.halt.manual + 64 * flag s.lsc.halt.overrun + 32 * flag (s.lsc.feed == .hold)),
          jams 0, jams 8]) ∧
    s.stationsSection = (List.range 16).map (fun e => byte
      (128 * flag (s.station e).valid + 32 * (s.stream e).state.code + 8 * (s.jam e).state.code))) ∧
  -- the track record
  ∀ (e : TrackEntry) (fill : Nat → Nat), (∀ n, e.place = .head n → n < 4) → e.record.inRange →
    let r := e.record
    let bits := (e.bytes fill).flatMap fun b => [7, 6, 5, 4, 3, 2, 1, 0].map fun k => b.getLsbD k
    let field := fun from' width : Nat =>
      ((bits.drop from').take width).foldl (fun (n : Nat) (b : Bool) => 2 * n + b.toNat) 0
    let holds := fun (fields : List (Nat × Nat × Nat)) => ∀ f ∈ fields, field f.1 f.2.1 = f.2.2
    (e.bytes fill).length = 45 ∧
    holds [(0, 8, e.gen.toNat), (8, 4, e.place.code), (12, 3, r.disposition.code), (15, 2, r.due.code),
      (349, 3, r.stampStatus.code),
      (352, 2, match r.routeA with
        | none => 0
        | some .bank => 1
        | some .returnBack => 2
        | some .bypass => 3),
      (354, 2, match r.routeB with
        | none => 0
        | some .fill => 1
        | some .scrap => 2
        | some .bench => 3),
      (356, 2, match r.reservation with
        | none => 0
        | some .fq => 1
        | some .xq => 2
        | some .gq => 3),
      (358, 1, r.atGate.toNat), (359, 1, 0)] ∧
    (r.identity = none → holds [(17, 2, 0), (19, 32, 0), (51, 16, 0), (67, 6, 0), (73, 7, 0), (80, 4, 0),
      (84, 15, 0), (99, 7, 0)]) ∧
    (∀ i, r.identity = some i → holds [(17, 2, match i.quality with
        | .good => 1
        | .weak => 2),
      (19, 32, i.serial), (51, 16, i.owner.toNat), (67, 6, i.cls), (73, 7, i.lastYear), (80, 4, i.lastMonth),
      (84, 15, i.tare), (99, 7, i.mfgYear)]) ∧
    (r.classSnap = none → holds [(106, 2, 3)]) ∧
    (∀ l, r.classSnap = some l → holds [(106, 2, l.material.code), (108, 8, l.interval), (116, 7, l.life),
      (123, 10, l.pt), (133, 8, l.margin), (141, 6, l.tolerance), (147, 10, l.hold), (157, 9, l.permLimit),
      (166, 15, l.elasticLimit), (181, 9, l.tareLoss), (190, 13, l.tareGain), (203, 2, l.maxRetests),
      (205, 5, l.ventThreshold), (210, 7, l.settle), (217, 2, l.strike)]) ∧
    (r.ownerSnap = none → holds [(219, 5, 31)]) ∧
    (∀ o, r.ownerSnap = some o → holds [(219, 5, o.advance), (224, 4, o.passTemplate)]) ∧
    (r.weight = .absent → holds [(228, 2, 0)]) ∧ (r.weight = .lost → holds [(228, 2, 1)]) ∧
    (∀ g stable, r.weight = .measured g stable → holds [(228, 2, if stable then 3 else 2), (230, 18, g)]) ∧
    (r.grade = .absent → holds [(248, 2, 0)]) ∧ (r.grade = .lost → holds [(248, 2, 1)]) ∧
    (∀ g, r.grade = .graded g → holds [(248, 2, 2), (250, 3, g)]) ∧
    (∀ k f, Finding.all[k]? = some f → field (253 + k) 1 = if f ∈ r.findings then 1 else 0) ∧
    (r.hydro = none → holds [(283, 3, 7), (345, 4, 0)]) ∧
    ∀ h, r.hydro = some h → holds [(283, 3, h.verdict.code), (286, 15, h.et), (301, 15, h.ep),
      (316, 10, h.ratio), (326, 10, h.peak), (336, 2, h.retests)] ∧
      (h.date = none → holds [(345, 4, 0)]) ∧ ∀ d, h.date = some d → holds [(338, 7, d.year), (345, 4, d.month)]

/-- R28, R30, R34, R182: a WRITE of the manager with an entry that fits the pointer's table is stored at the
pointer, which advances, and is answered DONE, or DONE_CLAMPED where a number was clamped; a station entry
also starts its stream and its jam qualifier afresh and takes its JAM cause away. An entry of another length
or with a code that names nothing is BAD_REQUEST, the pointer at the table end and a reversed recall range
RANGE, and a valid station entry that shares a node, or a role that stands for one place, CONFLICT. -/
def Obligations.WritesStoreTheEntryAtThePointer : Prop :=
  ∀ (s : State) (src : Node) (seq : Byte) (entry : List Byte), s.hearsManager src →
    let u := s.setOut []
    let i := s.mga.index
    let refused := fun (code : ReplyCode) =>
      exec (.write src seq entry) s = .next (u.answered src 4 seq code [])
    let stored := fun (clamped : Bool) (tables : Tables) (after : State → State) =>
      exec (.write src seq entry) s = .next (State.answered src 4 seq
        (if clamped then .doneClamped else .done) [byte s.mga.table.code, byte i]
        (after { u with tables := tables, mga := { u.mga with index := i + 1 } }))
    (entryFits s.mga.table entry = false → refused .badRequest) ∧
    (entryFits s.mga.table entry = true → s.mga.table.size ≤ i → refused .range) ∧
    (entryFits s.mga.table entry = true → i < s.mga.table.size →
      (s.mga.table = .station → parseStation entry = none → refused .badRequest) ∧
      (∀ e c, s.mga.table = .station → parseStation entry = some (e, c) →
        let clash := e.valid = true ∧ (e.node = s.config.own ∨ ∃ j < 16, j ≠ i ∧ (s.station j).valid = true ∧
          (e.node = (s.station j).node ∨ (e.role = (s.station j).role ∧ e.role ≠ .other ∧
            (e.role = .head → e.head = (s.station j).head))))
        (clash → refused .conflict) ∧
        (¬ clash → stored c { s.tables with station := s.tables.station.set i e } fun v =>
          State.removeCause (.jam i) { v with smn := {
            streams := v.smn.streams.set i StreamRecord.reset, jams := v.smn.jams.set i JamQualifier.reset } })) ∧
      (∀ e c, s.mga.table = .recallList → parseRecall entry = some (e, c) →
        (e.last < e.first → refused .range) ∧
        (e.first ≤ e.last → stored c { s.tables with recallList := s.tables.recallList.set i e } id)) ∧
      (s.mga.table = .cls → parseClass entry = none → refused .badRequest) ∧
      (∀ e c, s.mga.table = .cls → parseClass entry = some (e, c) →
        stored c { s.tables with cls := s.tables.cls.set i e } id) ∧
      (∀ e c, s.mga.table = .owner → parseOwner entry = some (e, c) →
        stored c { s.tables with owner := s.tables.owner.set i e } id) ∧
      (∀ e c, s.mga.table = .glyph → parseGlyph entry = some (e, c) →
        stored c { s.tables with glyph := s.tables.glyph.set i e } id) ∧
      (s.mga.table = .template → parseTemplate entry = none → refused .badRequest) ∧
      (∀ e c, s.mga.table = .template → parseTemplate entry = some (e, c) →
        stored c { s.tables with template := s.tables.template.set i e } id))

/-- R45, R46, R141, R142, R188: the manager's settings. SET_DATE and SET_PLANT_MARK store their values,
clamped to their ranges, and answer with them; CLEAR_COUNTERS clears the 22 counters, the divergence count
and the unfit flag; SET_LOOP LOCAL needs TRANSPARENT role; PROVE_START seeds proving afresh outside ACTIVE
role, PROVE_STOP turns it off, PROVE_INSERT marks the next frame. A loop mode that does not exist is
BAD_REQUEST. What turning proving off leaves standing is the model's choice (log 21). -/
def Obligations.ManagerSettingsAreStored : Prop :=
  ∀ (s : State) (src : Node) (seq : Byte), s.hearsManager src →
    let u := s.setOut []
    (∀ year month : Byte,
      let y := min year.toNat 99
      let m := max 1 (min month.toNat 12)
      let code := if y = year.toNat ∧ m = month.toNat then ReplyCode.done else .doneClamped
      exec (.setDate src seq year month) s = .next (State.answered src 8 seq code [byte y, byte m]
        { u with mga := { u.mga with date := some ⟨y, m⟩ } })) ∧
    (∀ a b c d : Byte,
      let marks := [min a.toNat 63, min b.toNat 63, min c.toNat 63, min d.toNat 63]
      let code := if marks = [a.toNat, b.toNat, c.toNat, d.toNat] then ReplyCode.done else .doneClamped
      exec (.setPlantMark src seq a b c d) s = .next (State.answered src 16 seq code (marks.map byte)
        { u with mga := { u.mga with override := some marks } })) ∧
    exec (.clearCounters src seq) s = .next (State.answered src 7 seq .done [] { u with
      mga := { u.mga with counters := List.replicate 22 0 }
      rol := { u.rol with divergence := 0, unfit := false } }) ∧
    (∀ mode : Byte,
      (mode = 0 → exec (.setLoop src seq mode) s = .next (State.answered src 10 seq .done []
        { u with rpt := { u.rpt with loop := .normal } })) ∧
      (mode = 1 → s.isRole .transparent = true → exec (.setLoop src seq mode) s =
        .next (State.answered src 10 seq .done [] { u with rpt := { u.rpt with loop := .local } })) ∧
      (mode = 1 → s.isRole .transparent = false → exec (.setLoop src seq mode) s =
        .next (u.answered src 10 seq .wrongState [])) ∧
      (1 < mode.toNat → exec (.setLoop src seq mode) s = .next (u.answered src 10 seq .badRequest []))) ∧
    (s.isRole .active = true →
      exec (.proveStart src seq) s = .next (u.answered src 15 seq .wrongState []) ∧
      exec (.proveStop src seq) s = .next (u.answered src 15 seq .done []) ∧
      exec (.proveInsert src seq) s = .next (u.answered src 15 seq .wrongState [])) ∧
    (s.isRole .active = false →
      exec (.proveStart src seq) s = .next (State.answered src 15 seq .done [] { u with
        rpt := { u.rpt with proving := {
          on := true, generator := BitVec.allOnes 15, position := 0, insertion := false, due := false,
          interval := some s.config.proveInterval, list := [], loss := 0, checker := .seeking,
          expected := BitVec.allOnes 15, expectedPos := 0, run := 0, window := [] } } }) ∧
      (s.rpt.proving.on = true →
        exec (.proveStop src seq) s = .next (State.answered src 15 seq .done [] { u with
          rpt := { u.rpt with proving := { u.rpt.proving with
            on := false, interval := none, due := false, insertion := false, list := [],
            checker := .off } } }) ∧
        exec (.proveInsert src seq) s = .next (State.answered src 15 seq .done [] { u with
          rpt := { u.rpt with proving := { u.rpt.proving with insertion := true } } })) ∧
      (s.rpt.proving.on = false →
        exec (.proveStop src seq) s = .next (u.answered src 15 seq .done []) ∧
        exec (.proveInsert src seq) s = .next (u.answered src 15 seq .wrongState [])))

/-- R24, R25, R104, R161, R162, R173, R175 to R177, R197: SET_ROLE. The role held is answered DONE with no change;
ACTIVE to SHADOW is a demotion; SHADOW to ACTIVE a takeover, which gives the expectations to the order queue,
starts the ramps of the heads in LOADED, sends the line and feed states again, turns proving off (log 21) and
issues TAKEOVER; from either to TRANSPARENT all tracking is cleared, with no order and no notice; from
TRANSPARENT the role is entered with its timers, but not in loop mode LOCAL. A code of no role is BAD_REQUEST.
RESTART withdraws the orders, sends VENT for the heads under pressure, clears the bank, the tracking and the
streams, sends RESUME and FEED_GO where they stood otherwise, and sets the cause; the tables, the role, the
counters and the reply and notice queues stay. -/
def Obligations.RolesAndRestartsClearWhatTheyShould : Prop :=
  ∀ (s : State) (src : Node) (seq : Byte), s.hearsManager src →
    let u := s.setOut []
    let asked := fun (r : Role) (code : ReplyCode) (t : State) =>
      exec (.setRole src seq (byte r.code)) s = .next (t.answered src 9 seq code [])
    let cleared : State → State := fun v => { v with
      trk := {
        table := s.trk.table.map fun x =>
          if x.place = .free then x else ⟨x.gen + 1, .free, TrackRecord.fresh⟩,
        iq := [], gateA := none, fq := [], xq := [], gq := [], closing := [], claims := [] }
      scr := { gate := GateRecord.reset }
      fcu := { slot := StampSlot.reset, gate := GateRecord.reset }
      tbc := {
        heads := v.tbc.heads.map fun h =>
          if h.state = .disabled then { HeadRecord.reset with state := .disabled } else HeadRecord.reset,
        loader := Loader.reset }
      smn := StreamMonitor.reset }
    (∀ code : Byte, 2 < code.toNat →
      exec (.setRole src seq code) s = .next (u.answered src 9 seq .badRequest [])) ∧
    (∀ r, s.isRole r = true → asked r .done u) ∧
    (s.isRole .active = true → asked .shadow .done ((State.serveClosing { u with
      rol := { u.rol with role := some .shadow, partnerSeen := some s.config.takeoverTime }
      rpt := { u.rpt with orders := [], outstanding := [] } }).notify .demoted src.toNat)) ∧
    (s.isRole .shadow = true → s.rpt.orders.length + s.rol.expectations.length ≤ 24 →
      let v : State := { u with
        rpt := { u.rpt with
          orders := s.rpt.orders ++ s.rol.expectations.map fun e => ⟨e.dst, e.order⟩ }
        rol := { u.rol with role := some .active, partnerSeen := none, expectations := [] } }
      let w := (((v.leaveLoaded 0).leaveLoaded 1).leaveLoaded 2).leaveLoaded 3
      let x := (w.send (some 63) (if s.lsc.halt.isEmpty then .resume else .halt)).send
        (s.roleNode .induction) (if s.lsc.feed = .hold then .feedHold else .feedGo)
      asked .active .done (State.notify .takeover s.rol.expectations.length { x with
        rpt := { x.rpt with proving := { x.rpt.proving with
          on := false, interval := none, due := false, insertion := false, list := [],
          checker := .off } } })) ∧
    (s.isRole .active = true ∨ s.isRole .shadow = true → asked .transparent .done { cleared u with
      lsc := { halt := HaltSet.none, feed := .go, lastIq := 0 }
      rpt := { u.rpt with orders := [], outstanding := [], beaconDue := false }
      rol := { u.rol with role := some .transparent, beaconTimer := none, partnerSeen := none,
                          expectations := [] } }) ∧
    (s.isRole .transparent = true →
      (s.rpt.loop = .local → asked .active .wrongState u ∧ asked .shadow .wrongState u) ∧
      (s.rpt.loop = .normal →
        asked .shadow .done { u with rol := { u.rol with
          role := some .shadow
          beaconTimer := some s.config.beaconPeriod
          partnerSeen := some s.config.takeoverTime } } ∧
        asked .active .done { u with
          rol := { u.rol with role := some .active, beaconTimer := some s.config.beaconPeriod }
          rpt := { u.rpt with proving := { u.rpt.proving with
            on := false, interval := none, due := false, insertion := false, list := [],
            checker := .off } } })) ∧
    (let withdrawn : State := { u with
        rpt := { u.rpt with orders := [], outstanding := [] }, rol := { u.rol with expectations := [] } }
      let vented := [0, 1, 2, 3].foldl (fun v n => match (s.head n).state, (s.head n).cylinder with
        | .pressurizing, some i | .holding, some i | .venting, some i =>
          v.send (s.headNode n) (.vent (s.refOf i))
        | _, _ => v) withdrawn
      let v := cleared vented
      let v : State := { v with lsc := { v.lsc with halt := HaltSet.none } }
      let v := if s.lsc.halt.isEmpty then v else v.send (some 63) .resume
      let v := v.reportIq 0
      exec (.restart src seq) s = .next (State.answered src 17 seq .done []
        { v with cfl := { v.cfl with cause := .restart } }))

/-- R100 to R103: the HEAD requests. RETEST issues TEST from PRESSURIZING, HOLDING, and SETTLING or MEASURING
while the outcome is open, and is kept for the vent's end in VENTING; ABORT makes the test's outcome INVALID
with the finding, by way of a vent from pressure and DONE at once without; DISABLE and ENABLE act on a head
that holds no cylinder, and are BUSY on one that does. In every other state RETEST and ABORT are WRONG_STATE;
a head above 3 is RANGE. -/
def Obligations.HeadRequestsActOnTheHead : Prop :=
  ∀ (s : State) (src : Node) (seq head : Byte), s.hearsManager src →
    let u := s.setOut []
    let n := head.toNat
    let h := s.head n
    let reply := fun (code : ReplyCode) (t : State) => (t.answered src 11 seq code [])
    (3 < n → ∀ c ∈ [Instr.retest src seq head, .abort src seq head, .disable src seq head, .enable src seq head],
      exec c s = .next (reply .range u)) ∧
    (n ≤ 3 →
      let stopped := u.modHead n fun h => { h with timer := none }
      (h.cylinder = none → exec (.retest src seq head) s = .next (reply .wrongState u) ∧
        exec (.abort src seq head) s = .next (reply .wrongState u)) ∧
      (∀ i, h.cylinder = some i →
        let final := fun (v : State) =>
          let v := v.modRecord i fun r => { r with hydro := some { r.hydro.getD Hydro.fresh with
            verdict := .invalid, date := s.mga.date } }
          (v.addFinding i .hydroInvalid).modHead n fun h => { h with fixed := true, retest := .none }
        (h.state = .pressurizing ∨ h.state = .holding →
          exec (.retest src seq head) s = .next (reply .done (stopped.issueTest n i)) ∧
          exec (.abort src seq head) s = .next (reply .done
            (((final stopped).send (s.headNode n) (.vent (s.refOf i))).modHead n fun h =>
              { h with state := .venting, timer := some ⟨.vent, s.config.ventTimeout * 1000⟩ }))) ∧
        (h.state = .venting → h.fixed = false →
          exec (.retest src seq head) s = .next (reply .done (u.modHead n fun h =>
            { h with retest := if h.retest = .automatic then .automatic else .requested })) ∧
          exec (.abort src seq head) s = .next (reply .done (final u))) ∧
        (h.state = .venting → h.fixed = true →
          exec (.retest src seq head) s = .next (reply .wrongState u) ∧
          exec (.abort src seq head) s = .next (reply .done u)) ∧
        (h.state = .settling ∨ h.state = .measuring →
          (h.fixed = false → exec (.retest src seq head) s = .next (reply .done
            ((stopped.modHead n fun h => { h with retest := .requested }).issueTest n i))) ∧
          (h.fixed = true → exec (.retest src seq head) s = .next (reply .wrongState u)) ∧
          exec (.abort src seq head) s = .next (reply .done ((final stopped).enterDone n i))) ∧
        (h.state = .loaded → exec (.retest src seq head) s = .next (reply .wrongState u) ∧
          exec (.abort src seq head) s = .next (reply .done ((final stopped).enterDone n i))) ∧
        (h.state = .assigned ∨ h.state = .done → exec (.retest src seq head) s = .next (reply .wrongState u) ∧
          exec (.abort src seq head) s = .next (reply .wrongState u))) ∧
      (h.state = .empty ∨ h.state = .disabled ∨ h.state = .faulted →
        exec (.disable src seq head) s =
          .next (reply .done (u.modHead n fun h => { h with state := .disabled }))) ∧
      (h.state = .empty → exec (.enable src seq head) s = .next (reply .done u)) ∧
      (h.state = .disabled ∨ h.state = .faulted → exec (.enable src seq head) s =
        .next (reply .done (u.modHead n fun _ => HeadRecord.reset).assignLoader)) ∧
      (h.state ≠ .empty → h.state ≠ .disabled → h.state ≠ .faulted →
        exec (.disable src seq head) s = .next (reply .busy u) ∧
        exec (.enable src seq head) s = .next (reply .busy u)))

/-- R2, R63, R122, R157, R158, R185: TRACK_HOLD adds OPERATOR_HOLD to the entry a current reference names, unless it
is present, and the gates route it again, where a deferred BYPASS keeps its route and its claim; a stale
reference, and an entry on the closing list, are WRONG_STATE. HALT_MANUAL and CLEAR_OVERRUN add and remove their
causes, and in ACTIVE role a HALT_MANUAL that finds the line as it asks sends the order again; in TRANSPARENT
role ON is WRONG_STATE, the others nothing. -/
def Obligations.HoldsAndHaltsAreServed : Prop :=
  ∀ (s : State) (src : Node) (seq : Byte), s.hearsManager src →
    let u := s.setOut []
    (∀ ref : WireRef,
      let i := ref.index.toNat
      let current := i < 80 ∧ (s.entry i).place ≠ .free ∧ (s.entry i).gen = ref.gen
      (¬ current ∨ (s.entry i).place = .closing →
        exec (.trackHold src seq ref) s = .next (u.answered src 12 seq .wrongState [])) ∧
      (current → (s.entry i).place ≠ .closing →
        (Finding.operatorHold ∈ (s.record i).findings →
          exec (.trackHold src seq ref) s = .next (u.answered src 12 seq .done [])) ∧
        (Finding.operatorHold ∉ (s.record i).findings →
          let v := u.addFinding i .operatorHold
          (s.scr.gate.item ≠ some (.entry i) → s.fcu.gate.item ≠ some (.entry i) →
            exec (.trackHold src seq ref) s = .next (v.answered src 12 seq .done [])) ∧
          (∀ route a, s.fcu.gate.item = some (.entry i) → s.scr.gate.item ≠ some (.entry i) →
            s.fcu.gate.state = .pending → s.fcu.gate.ordered = some route → s.fcu.gate.stored = some a →
            let new := if (v.record i).disposition = .condemned then RouteB.scrap
              else if (v.record i).disposition = .requalified then .fill else .bench
            exec (.trackHold src seq ref) s = .next (State.answered src 12 seq .done []
              (if route = new then v else
                State.send (v.roleNode .gateB) (.routeB new (some (v.refOf i)) a) { v with
                  fcu := { v.fcu with gate := { v.fcu.gate with ordered := some new } } }))) ∧
          (s.scr.gate.item = some (.entry i) → s.fcu.gate.item ≠ some (.entry i) →
            s.scr.gate.state = .pending →
            exec (.trackHold src seq ref) s = .next (v.answered src 12 seq .done [])) ∧
          (s.scr.gate.item = some (.entry i) → s.fcu.gate.item ≠ some (.entry i) →
            s.scr.gate.state = .deferred → s.scr.gate.ordered = some .bank →
            (s.record i).disposition ≠ .lost →
            let w := v.addMissing i
            let w : State := { w with trk := { w.trk with
              claims := w.trk.claims.filter fun c => c.holder.entry != some i } }
            exec (.trackHold src seq ref) s =
              .next (State.answered src 12 seq .done [] (w.sendOrDeferA i .bypass))) ∧
          (s.scr.gate.item = some (.entry i) → s.fcu.gate.item ≠ some (.entry i) →
            s.scr.gate.state = .deferred → s.scr.gate.ordered = some .bypass →
            (s.record i).disposition ≠ .lost →
            let r := v.record i
            let unweighed := match r.weight with
              | .measured .. => false
              | _ => r.classSnap.all fun l => l.material != .composite
            let ungraded := match r.grade with
              | .graded _ => false
              | _ => true
            exec (.trackHold src seq ref) s = .next (State.answered src 12 seq .done []
              ((v.addFindingIf unweighed i .weightMissing).addFindingIf ungraded i .gradeMissing)))))) ∧
    (s.isRole .active = true →
      exec (.haltManualOn src seq) s = .next (State.answered src 13 seq .done []
        (if s.lsc.halt.isEmpty then u.addCause .manual
          else (u.addCause .manual).send (some 63) .halt)) ∧
      exec (.haltManualOff src seq) s = .next (State.answered src 13 seq .done []
        (if s.lsc.halt.isEmpty then (u.removeCause .manual).send (some 63) .resume
          else u.removeCause .manual))) ∧
    (s.isRole .shadow = true →
      exec (.haltManualOn src seq) s = .next ((u.addCause .manual).answered src 13 seq .done []) ∧
      exec (.haltManualOff src seq) s = .next ((u.removeCause .manual).answered src 13 seq .done [])) ∧
    (s.tracking = false →
      exec (.haltManualOn src seq) s = .next (u.answered src 13 seq .wrongState []) ∧
      exec (.haltManualOff src seq) s = .next (u.answered src 13 seq .done []) ∧
      exec (.clearOverrun src seq) s = .next (u.answered src 14 seq .done [])) ∧
    (s.tracking = true →
      exec (.clearOverrun src seq) s = .next ((u.removeCause .overrun).answered src 14 seq .done []))
end

