-- ==== Sys2Proof/Laws/State.lean ====
section
/-! SUPPORT. One lemma per field per update of `State`: what each update sets, and that it leaves every
other field as it stood. -/

namespace Sys2Proof.Machine

variable (s : State)

/-! ### modPins -/

@[simp] theorem State.modPins_pins (f : Pins → Pins) : (s.modPins f).pins = f s.pins := rfl
@[simp] theorem State.modPins_rpt (f : Pins → Pins) : (s.modPins f).rpt = s.rpt := rfl
@[simp] theorem State.modPins_smn (f : Pins → Pins) : (s.modPins f).smn = s.smn := rfl
@[simp] theorem State.modPins_lsc (f : Pins → Pins) : (s.modPins f).lsc = s.lsc := rfl
@[simp] theorem State.modPins_trk (f : Pins → Pins) : (s.modPins f).trk = s.trk := rfl
@[simp] theorem State.modPins_scr (f : Pins → Pins) : (s.modPins f).scr = s.scr := rfl
@[simp] theorem State.modPins_tbc (f : Pins → Pins) : (s.modPins f).tbc = s.tbc := rfl
@[simp] theorem State.modPins_fcu (f : Pins → Pins) : (s.modPins f).fcu = s.fcu := rfl
@[simp] theorem State.modPins_rol (f : Pins → Pins) : (s.modPins f).rol = s.rol := rfl
@[simp] theorem State.modPins_mga (f : Pins → Pins) : (s.modPins f).mga = s.mga := rfl
@[simp] theorem State.modPins_cfl (f : Pins → Pins) : (s.modPins f).cfl = s.cfl := rfl
@[simp] theorem State.modPins_tables (f : Pins → Pins) : (s.modPins f).tables = s.tables := rfl
@[simp] theorem State.modPins_out (f : Pins → Pins) : (s.modPins f).out = s.out := rfl
@[simp] theorem State.modPins_free (f : Pins → Pins) : (s.modPins f).free = s.free := rfl
@[simp] theorem State.modPins_pending (f : Pins → Pins) : (s.modPins f).pending = s.pending := rfl

/-! ### modRpt -/

@[simp] theorem State.modRpt_pins (f : RingPort → RingPort) : (s.modRpt f).pins = s.pins := rfl
@[simp] theorem State.modRpt_rpt (f : RingPort → RingPort) : (s.modRpt f).rpt = f s.rpt := rfl
@[simp] theorem State.modRpt_smn (f : RingPort → RingPort) : (s.modRpt f).smn = s.smn := rfl
@[simp] theorem State.modRpt_lsc (f : RingPort → RingPort) : (s.modRpt f).lsc = s.lsc := rfl
@[simp] theorem State.modRpt_trk (f : RingPort → RingPort) : (s.modRpt f).trk = s.trk := rfl
@[simp] theorem State.modRpt_scr (f : RingPort → RingPort) : (s.modRpt f).scr = s.scr := rfl
@[simp] theorem State.modRpt_tbc (f : RingPort → RingPort) : (s.modRpt f).tbc = s.tbc := rfl
@[simp] theorem State.modRpt_fcu (f : RingPort → RingPort) : (s.modRpt f).fcu = s.fcu := rfl
@[simp] theorem State.modRpt_rol (f : RingPort → RingPort) : (s.modRpt f).rol = s.rol := rfl
@[simp] theorem State.modRpt_mga (f : RingPort → RingPort) : (s.modRpt f).mga = s.mga := rfl
@[simp] theorem State.modRpt_cfl (f : RingPort → RingPort) : (s.modRpt f).cfl = s.cfl := rfl
@[simp] theorem State.modRpt_tables (f : RingPort → RingPort) : (s.modRpt f).tables = s.tables := rfl
@[simp] theorem State.modRpt_out (f : RingPort → RingPort) : (s.modRpt f).out = s.out := rfl
@[simp] theorem State.modRpt_free (f : RingPort → RingPort) : (s.modRpt f).free = s.free := rfl
@[simp] theorem State.modRpt_pending (f : RingPort → RingPort) : (s.modRpt f).pending = s.pending := rfl

/-! ### modSmn -/

@[simp] theorem State.modSmn_pins (f : StreamMonitor → StreamMonitor) : (s.modSmn f).pins = s.pins := rfl
@[simp] theorem State.modSmn_rpt (f : StreamMonitor → StreamMonitor) : (s.modSmn f).rpt = s.rpt := rfl
@[simp] theorem State.modSmn_smn (f : StreamMonitor → StreamMonitor) : (s.modSmn f).smn = f s.smn := rfl
@[simp] theorem State.modSmn_lsc (f : StreamMonitor → StreamMonitor) : (s.modSmn f).lsc = s.lsc := rfl
@[simp] theorem State.modSmn_trk (f : StreamMonitor → StreamMonitor) : (s.modSmn f).trk = s.trk := rfl
@[simp] theorem State.modSmn_scr (f : StreamMonitor → StreamMonitor) : (s.modSmn f).scr = s.scr := rfl
@[simp] theorem State.modSmn_tbc (f : StreamMonitor → StreamMonitor) : (s.modSmn f).tbc = s.tbc := rfl
@[simp] theorem State.modSmn_fcu (f : StreamMonitor → StreamMonitor) : (s.modSmn f).fcu = s.fcu := rfl
@[simp] theorem State.modSmn_rol (f : StreamMonitor → StreamMonitor) : (s.modSmn f).rol = s.rol := rfl
@[simp] theorem State.modSmn_mga (f : StreamMonitor → StreamMonitor) : (s.modSmn f).mga = s.mga := rfl
@[simp] theorem State.modSmn_cfl (f : StreamMonitor → StreamMonitor) : (s.modSmn f).cfl = s.cfl := rfl
@[simp] theorem State.modSmn_tables (f : StreamMonitor → StreamMonitor) : (s.modSmn f).tables = s.tables := rfl
@[simp] theorem State.modSmn_out (f : StreamMonitor → StreamMonitor) : (s.modSmn f).out = s.out := rfl
@[simp] theorem State.modSmn_free (f : StreamMonitor → StreamMonitor) : (s.modSmn f).free = s.free := rfl
@[simp] theorem State.modSmn_pending (f : StreamMonitor → StreamMonitor) : (s.modSmn f).pending = s.pending := rfl

/-! ### modLsc -/

@[simp] theorem State.modLsc_pins (f : LineStop → LineStop) : (s.modLsc f).pins = s.pins := rfl
@[simp] theorem State.modLsc_rpt (f : LineStop → LineStop) : (s.modLsc f).rpt = s.rpt := rfl
@[simp] theorem State.modLsc_smn (f : LineStop → LineStop) : (s.modLsc f).smn = s.smn := rfl
@[simp] theorem State.modLsc_lsc (f : LineStop → LineStop) : (s.modLsc f).lsc = f s.lsc := rfl
@[simp] theorem State.modLsc_trk (f : LineStop → LineStop) : (s.modLsc f).trk = s.trk := rfl
@[simp] theorem State.modLsc_scr (f : LineStop → LineStop) : (s.modLsc f).scr = s.scr := rfl
@[simp] theorem State.modLsc_tbc (f : LineStop → LineStop) : (s.modLsc f).tbc = s.tbc := rfl
@[simp] theorem State.modLsc_fcu (f : LineStop → LineStop) : (s.modLsc f).fcu = s.fcu := rfl
@[simp] theorem State.modLsc_rol (f : LineStop → LineStop) : (s.modLsc f).rol = s.rol := rfl
@[simp] theorem State.modLsc_mga (f : LineStop → LineStop) : (s.modLsc f).mga = s.mga := rfl
@[simp] theorem State.modLsc_cfl (f : LineStop → LineStop) : (s.modLsc f).cfl = s.cfl := rfl
@[simp] theorem State.modLsc_tables (f : LineStop → LineStop) : (s.modLsc f).tables = s.tables := rfl
@[simp] theorem State.modLsc_out (f : LineStop → LineStop) : (s.modLsc f).out = s.out := rfl
@[simp] theorem State.modLsc_free (f : LineStop → LineStop) : (s.modLsc f).free = s.free := rfl
@[simp] theorem State.modLsc_pending (f : LineStop → LineStop) : (s.modLsc f).pending = s.pending := rfl

/-! ### modTrk -/

@[simp] theorem State.modTrk_pins (f : TrackUnit → TrackUnit) : (s.modTrk f).pins = s.pins := rfl
@[simp] theorem State.modTrk_rpt (f : TrackUnit → TrackUnit) : (s.modTrk f).rpt = s.rpt := rfl
@[simp] theorem State.modTrk_smn (f : TrackUnit → TrackUnit) : (s.modTrk f).smn = s.smn := rfl
@[simp] theorem State.modTrk_lsc (f : TrackUnit → TrackUnit) : (s.modTrk f).lsc = s.lsc := rfl
@[simp] theorem State.modTrk_trk (f : TrackUnit → TrackUnit) : (s.modTrk f).trk = f s.trk := rfl
@[simp] theorem State.modTrk_scr (f : TrackUnit → TrackUnit) : (s.modTrk f).scr = s.scr := rfl
@[simp] theorem State.modTrk_tbc (f : TrackUnit → TrackUnit) : (s.modTrk f).tbc = s.tbc := rfl
@[simp] theorem State.modTrk_fcu (f : TrackUnit → TrackUnit) : (s.modTrk f).fcu = s.fcu := rfl
@[simp] theorem State.modTrk_rol (f : TrackUnit → TrackUnit) : (s.modTrk f).rol = s.rol := rfl
@[simp] theorem State.modTrk_mga (f : TrackUnit → TrackUnit) : (s.modTrk f).mga = s.mga := rfl
@[simp] theorem State.modTrk_cfl (f : TrackUnit → TrackUnit) : (s.modTrk f).cfl = s.cfl := rfl
@[simp] theorem State.modTrk_tables (f : TrackUnit → TrackUnit) : (s.modTrk f).tables = s.tables := rfl
@[simp] theorem State.modTrk_out (f : TrackUnit → TrackUnit) : (s.modTrk f).out = s.out := rfl
@[simp] theorem State.modTrk_free (f : TrackUnit → TrackUnit) : (s.modTrk f).free = s.free := rfl
@[simp] theorem State.modTrk_pending (f : TrackUnit → TrackUnit) : (s.modTrk f).pending = s.pending := rfl

/-! ### modGateA -/

@[simp] theorem State.modGateA_pins (f : GateRecord RouteA → GateRecord RouteA) : (s.modGateA f).pins = s.pins := rfl
@[simp] theorem State.modGateA_rpt (f : GateRecord RouteA → GateRecord RouteA) : (s.modGateA f).rpt = s.rpt := rfl
@[simp] theorem State.modGateA_smn (f : GateRecord RouteA → GateRecord RouteA) : (s.modGateA f).smn = s.smn := rfl
@[simp] theorem State.modGateA_lsc (f : GateRecord RouteA → GateRecord RouteA) : (s.modGateA f).lsc = s.lsc := rfl
@[simp] theorem State.modGateA_trk (f : GateRecord RouteA → GateRecord RouteA) : (s.modGateA f).trk = s.trk := rfl
@[simp] theorem State.modGateA_scr (f : GateRecord RouteA → GateRecord RouteA) : (s.modGateA f).scr = { gate := f s.scr.gate } := rfl
@[simp] theorem State.modGateA_tbc (f : GateRecord RouteA → GateRecord RouteA) : (s.modGateA f).tbc = s.tbc := rfl
@[simp] theorem State.modGateA_fcu (f : GateRecord RouteA → GateRecord RouteA) : (s.modGateA f).fcu = s.fcu := rfl
@[simp] theorem State.modGateA_rol (f : GateRecord RouteA → GateRecord RouteA) : (s.modGateA f).rol = s.rol := rfl
@[simp] theorem State.modGateA_mga (f : GateRecord RouteA → GateRecord RouteA) : (s.modGateA f).mga = s.mga := rfl
@[simp] theorem State.modGateA_cfl (f : GateRecord RouteA → GateRecord RouteA) : (s.modGateA f).cfl = s.cfl := rfl
@[simp] theorem State.modGateA_tables (f : GateRecord RouteA → GateRecord RouteA) : (s.modGateA f).tables = s.tables := rfl
@[simp] theorem State.modGateA_out (f : GateRecord RouteA → GateRecord RouteA) : (s.modGateA f).out = s.out := rfl
@[simp] theorem State.modGateA_free (f : GateRecord RouteA → GateRecord RouteA) : (s.modGateA f).free = s.free := rfl
@[simp] theorem State.modGateA_pending (f : GateRecord RouteA → GateRecord RouteA) : (s.modGateA f).pending = s.pending := rfl

/-! ### modTbc -/

@[simp] theorem State.modTbc_pins (f : TestBank → TestBank) : (s.modTbc f).pins = s.pins := rfl
@[simp] theorem State.modTbc_rpt (f : TestBank → TestBank) : (s.modTbc f).rpt = s.rpt := rfl
@[simp] theorem State.modTbc_smn (f : TestBank → TestBank) : (s.modTbc f).smn = s.smn := rfl
@[simp] theorem State.modTbc_lsc (f : TestBank → TestBank) : (s.modTbc f).lsc = s.lsc := rfl
@[simp] theorem State.modTbc_trk (f : TestBank → TestBank) : (s.modTbc f).trk = s.trk := rfl
@[simp] theorem State.modTbc_scr (f : TestBank → TestBank) : (s.modTbc f).scr = s.scr := rfl
@[simp] theorem State.modTbc_tbc (f : TestBank → TestBank) : (s.modTbc f).tbc = f s.tbc := rfl
@[simp] theorem State.modTbc_fcu (f : TestBank → TestBank) : (s.modTbc f).fcu = s.fcu := rfl
@[simp] theorem State.modTbc_rol (f : TestBank → TestBank) : (s.modTbc f).rol = s.rol := rfl
@[simp] theorem State.modTbc_mga (f : TestBank → TestBank) : (s.modTbc f).mga = s.mga := rfl
@[simp] theorem State.modTbc_cfl (f : TestBank → TestBank) : (s.modTbc f).cfl = s.cfl := rfl
@[simp] theorem State.modTbc_tables (f : TestBank → TestBank) : (s.modTbc f).tables = s.tables := rfl
@[simp] theorem State.modTbc_out (f : TestBank → TestBank) : (s.modTbc f).out = s.out := rfl
@[simp] theorem State.modTbc_free (f : TestBank → TestBank) : (s.modTbc f).free = s.free := rfl
@[simp] theorem State.modTbc_pending (f : TestBank → TestBank) : (s.modTbc f).pending = s.pending := rfl

/-! ### modFcu -/

@[simp] theorem State.modFcu_pins (f : FinishCell → FinishCell) : (s.modFcu f).pins = s.pins := rfl
@[simp] theorem State.modFcu_rpt (f : FinishCell → FinishCell) : (s.modFcu f).rpt = s.rpt := rfl
@[simp] theorem State.modFcu_smn (f : FinishCell → FinishCell) : (s.modFcu f).smn = s.smn := rfl
@[simp] theorem State.modFcu_lsc (f : FinishCell → FinishCell) : (s.modFcu f).lsc = s.lsc := rfl
@[simp] theorem State.modFcu_trk (f : FinishCell → FinishCell) : (s.modFcu f).trk = s.trk := rfl
@[simp] theorem State.modFcu_scr (f : FinishCell → FinishCell) : (s.modFcu f).scr = s.scr := rfl
@[simp] theorem State.modFcu_tbc (f : FinishCell → FinishCell) : (s.modFcu f).tbc = s.tbc := rfl
@[simp] theorem State.modFcu_fcu (f : FinishCell → FinishCell) : (s.modFcu f).fcu = f s.fcu := rfl
@[simp] theorem State.modFcu_rol (f : FinishCell → FinishCell) : (s.modFcu f).rol = s.rol := rfl
@[simp] theorem State.modFcu_mga (f : FinishCell → FinishCell) : (s.modFcu f).mga = s.mga := rfl
@[simp] theorem State.modFcu_cfl (f : FinishCell → FinishCell) : (s.modFcu f).cfl = s.cfl := rfl
@[simp] theorem State.modFcu_tables (f : FinishCell → FinishCell) : (s.modFcu f).tables = s.tables := rfl
@[simp] theorem State.modFcu_out (f : FinishCell → FinishCell) : (s.modFcu f).out = s.out := rfl
@[simp] theorem State.modFcu_free (f : FinishCell → FinishCell) : (s.modFcu f).free = s.free := rfl
@[simp] theorem State.modFcu_pending (f : FinishCell → FinishCell) : (s.modFcu f).pending = s.pending := rfl

/-! ### modRol -/

@[simp] theorem State.modRol_pins (f : RoleUnit → RoleUnit) : (s.modRol f).pins = s.pins := rfl
@[simp] theorem State.modRol_rpt (f : RoleUnit → RoleUnit) : (s.modRol f).rpt = s.rpt := rfl
@[simp] theorem State.modRol_smn (f : RoleUnit → RoleUnit) : (s.modRol f).smn = s.smn := rfl
@[simp] theorem State.modRol_lsc (f : RoleUnit → RoleUnit) : (s.modRol f).lsc = s.lsc := rfl
@[simp] theorem State.modRol_trk (f : RoleUnit → RoleUnit) : (s.modRol f).trk = s.trk := rfl
@[simp] theorem State.modRol_scr (f : RoleUnit → RoleUnit) : (s.modRol f).scr = s.scr := rfl
@[simp] theorem State.modRol_tbc (f : RoleUnit → RoleUnit) : (s.modRol f).tbc = s.tbc := rfl
@[simp] theorem State.modRol_fcu (f : RoleUnit → RoleUnit) : (s.modRol f).fcu = s.fcu := rfl
@[simp] theorem State.modRol_rol (f : RoleUnit → RoleUnit) : (s.modRol f).rol = f s.rol := rfl
@[simp] theorem State.modRol_mga (f : RoleUnit → RoleUnit) : (s.modRol f).mga = s.mga := rfl
@[simp] theorem State.modRol_cfl (f : RoleUnit → RoleUnit) : (s.modRol f).cfl = s.cfl := rfl
@[simp] theorem State.modRol_tables (f : RoleUnit → RoleUnit) : (s.modRol f).tables = s.tables := rfl
@[simp] theorem State.modRol_out (f : RoleUnit → RoleUnit) : (s.modRol f).out = s.out := rfl
@[simp] theorem State.modRol_free (f : RoleUnit → RoleUnit) : (s.modRol f).free = s.free := rfl
@[simp] theorem State.modRol_pending (f : RoleUnit → RoleUnit) : (s.modRol f).pending = s.pending := rfl

/-! ### modMga -/

@[simp] theorem State.modMga_pins (f : Management → Management) : (s.modMga f).pins = s.pins := rfl
@[simp] theorem State.modMga_rpt (f : Management → Management) : (s.modMga f).rpt = s.rpt := rfl
@[simp] theorem State.modMga_smn (f : Management → Management) : (s.modMga f).smn = s.smn := rfl
@[simp] theorem State.modMga_lsc (f : Management → Management) : (s.modMga f).lsc = s.lsc := rfl
@[simp] theorem State.modMga_trk (f : Management → Management) : (s.modMga f).trk = s.trk := rfl
@[simp] theorem State.modMga_scr (f : Management → Management) : (s.modMga f).scr = s.scr := rfl
@[simp] theorem State.modMga_tbc (f : Management → Management) : (s.modMga f).tbc = s.tbc := rfl
@[simp] theorem State.modMga_fcu (f : Management → Management) : (s.modMga f).fcu = s.fcu := rfl
@[simp] theorem State.modMga_rol (f : Management → Management) : (s.modMga f).rol = s.rol := rfl
@[simp] theorem State.modMga_mga (f : Management → Management) : (s.modMga f).mga = f s.mga := rfl
@[simp] theorem State.modMga_cfl (f : Management → Management) : (s.modMga f).cfl = s.cfl := rfl
@[simp] theorem State.modMga_tables (f : Management → Management) : (s.modMga f).tables = s.tables := rfl
@[simp] theorem State.modMga_out (f : Management → Management) : (s.modMga f).out = s.out := rfl
@[simp] theorem State.modMga_free (f : Management → Management) : (s.modMga f).free = s.free := rfl
@[simp] theorem State.modMga_pending (f : Management → Management) : (s.modMga f).pending = s.pending := rfl

/-! ### modCfl -/

@[simp] theorem State.modCfl_pins (f : ConfigLoader → ConfigLoader) : (s.modCfl f).pins = s.pins := rfl
@[simp] theorem State.modCfl_rpt (f : ConfigLoader → ConfigLoader) : (s.modCfl f).rpt = s.rpt := rfl
@[simp] theorem State.modCfl_smn (f : ConfigLoader → ConfigLoader) : (s.modCfl f).smn = s.smn := rfl
@[simp] theorem State.modCfl_lsc (f : ConfigLoader → ConfigLoader) : (s.modCfl f).lsc = s.lsc := rfl
@[simp] theorem State.modCfl_trk (f : ConfigLoader → ConfigLoader) : (s.modCfl f).trk = s.trk := rfl
@[simp] theorem State.modCfl_scr (f : ConfigLoader → ConfigLoader) : (s.modCfl f).scr = s.scr := rfl
@[simp] theorem State.modCfl_tbc (f : ConfigLoader → ConfigLoader) : (s.modCfl f).tbc = s.tbc := rfl
@[simp] theorem State.modCfl_fcu (f : ConfigLoader → ConfigLoader) : (s.modCfl f).fcu = s.fcu := rfl
@[simp] theorem State.modCfl_rol (f : ConfigLoader → ConfigLoader) : (s.modCfl f).rol = s.rol := rfl
@[simp] theorem State.modCfl_mga (f : ConfigLoader → ConfigLoader) : (s.modCfl f).mga = s.mga := rfl
@[simp] theorem State.modCfl_cfl (f : ConfigLoader → ConfigLoader) : (s.modCfl f).cfl = f s.cfl := rfl
@[simp] theorem State.modCfl_tables (f : ConfigLoader → ConfigLoader) : (s.modCfl f).tables = s.tables := rfl
@[simp] theorem State.modCfl_out (f : ConfigLoader → ConfigLoader) : (s.modCfl f).out = s.out := rfl
@[simp] theorem State.modCfl_free (f : ConfigLoader → ConfigLoader) : (s.modCfl f).free = s.free := rfl
@[simp] theorem State.modCfl_pending (f : ConfigLoader → ConfigLoader) : (s.modCfl f).pending = s.pending := rfl

/-! ### modTables -/

@[simp] theorem State.modTables_pins (f : Tables → Tables) : (s.modTables f).pins = s.pins := rfl
@[simp] theorem State.modTables_rpt (f : Tables → Tables) : (s.modTables f).rpt = s.rpt := rfl
@[simp] theorem State.modTables_smn (f : Tables → Tables) : (s.modTables f).smn = s.smn := rfl
@[simp] theorem State.modTables_lsc (f : Tables → Tables) : (s.modTables f).lsc = s.lsc := rfl
@[simp] theorem State.modTables_trk (f : Tables → Tables) : (s.modTables f).trk = s.trk := rfl
@[simp] theorem State.modTables_scr (f : Tables → Tables) : (s.modTables f).scr = s.scr := rfl
@[simp] theorem State.modTables_tbc (f : Tables → Tables) : (s.modTables f).tbc = s.tbc := rfl
@[simp] theorem State.modTables_fcu (f : Tables → Tables) : (s.modTables f).fcu = s.fcu := rfl
@[simp] theorem State.modTables_rol (f : Tables → Tables) : (s.modTables f).rol = s.rol := rfl
@[simp] theorem State.modTables_mga (f : Tables → Tables) : (s.modTables f).mga = s.mga := rfl
@[simp] theorem State.modTables_cfl (f : Tables → Tables) : (s.modTables f).cfl = s.cfl := rfl
@[simp] theorem State.modTables_tables (f : Tables → Tables) : (s.modTables f).tables = f s.tables := rfl
@[simp] theorem State.modTables_out (f : Tables → Tables) : (s.modTables f).out = s.out := rfl
@[simp] theorem State.modTables_free (f : Tables → Tables) : (s.modTables f).free = s.free := rfl
@[simp] theorem State.modTables_pending (f : Tables → Tables) : (s.modTables f).pending = s.pending := rfl

/-! ### modGateB -/

@[simp] theorem State.modGateB_pins (f : GateRecord RouteB → GateRecord RouteB) : (s.modGateB f).pins = s.pins := rfl
@[simp] theorem State.modGateB_rpt (f : GateRecord RouteB → GateRecord RouteB) : (s.modGateB f).rpt = s.rpt := rfl
@[simp] theorem State.modGateB_smn (f : GateRecord RouteB → GateRecord RouteB) : (s.modGateB f).smn = s.smn := rfl
@[simp] theorem State.modGateB_lsc (f : GateRecord RouteB → GateRecord RouteB) : (s.modGateB f).lsc = s.lsc := rfl
@[simp] theorem State.modGateB_trk (f : GateRecord RouteB → GateRecord RouteB) : (s.modGateB f).trk = s.trk := rfl
@[simp] theorem State.modGateB_scr (f : GateRecord RouteB → GateRecord RouteB) : (s.modGateB f).scr = s.scr := rfl
@[simp] theorem State.modGateB_tbc (f : GateRecord RouteB → GateRecord RouteB) : (s.modGateB f).tbc = s.tbc := rfl
@[simp] theorem State.modGateB_fcu (f : GateRecord RouteB → GateRecord RouteB) : (s.modGateB f).fcu = { s.fcu with gate := f s.fcu.gate } := rfl
@[simp] theorem State.modGateB_rol (f : GateRecord RouteB → GateRecord RouteB) : (s.modGateB f).rol = s.rol := rfl
@[simp] theorem State.modGateB_mga (f : GateRecord RouteB → GateRecord RouteB) : (s.modGateB f).mga = s.mga := rfl
@[simp] theorem State.modGateB_cfl (f : GateRecord RouteB → GateRecord RouteB) : (s.modGateB f).cfl = s.cfl := rfl
@[simp] theorem State.modGateB_tables (f : GateRecord RouteB → GateRecord RouteB) : (s.modGateB f).tables = s.tables := rfl
@[simp] theorem State.modGateB_out (f : GateRecord RouteB → GateRecord RouteB) : (s.modGateB f).out = s.out := rfl
@[simp] theorem State.modGateB_free (f : GateRecord RouteB → GateRecord RouteB) : (s.modGateB f).free = s.free := rfl
@[simp] theorem State.modGateB_pending (f : GateRecord RouteB → GateRecord RouteB) : (s.modGateB f).pending = s.pending := rfl

/-! ### modSlot -/

@[simp] theorem State.modSlot_pins (f : StampSlot → StampSlot) : (s.modSlot f).pins = s.pins := rfl
@[simp] theorem State.modSlot_rpt (f : StampSlot → StampSlot) : (s.modSlot f).rpt = s.rpt := rfl
@[simp] theorem State.modSlot_smn (f : StampSlot → StampSlot) : (s.modSlot f).smn = s.smn := rfl
@[simp] theorem State.modSlot_lsc (f : StampSlot → StampSlot) : (s.modSlot f).lsc = s.lsc := rfl
@[simp] theorem State.modSlot_trk (f : StampSlot → StampSlot) : (s.modSlot f).trk = s.trk := rfl
@[simp] theorem State.modSlot_scr (f : StampSlot → StampSlot) : (s.modSlot f).scr = s.scr := rfl
@[simp] theorem State.modSlot_tbc (f : StampSlot → StampSlot) : (s.modSlot f).tbc = s.tbc := rfl
@[simp] theorem State.modSlot_fcu (f : StampSlot → StampSlot) : (s.modSlot f).fcu = { s.fcu with slot := f s.fcu.slot } := rfl
@[simp] theorem State.modSlot_rol (f : StampSlot → StampSlot) : (s.modSlot f).rol = s.rol := rfl
@[simp] theorem State.modSlot_mga (f : StampSlot → StampSlot) : (s.modSlot f).mga = s.mga := rfl
@[simp] theorem State.modSlot_cfl (f : StampSlot → StampSlot) : (s.modSlot f).cfl = s.cfl := rfl
@[simp] theorem State.modSlot_tables (f : StampSlot → StampSlot) : (s.modSlot f).tables = s.tables := rfl
@[simp] theorem State.modSlot_out (f : StampSlot → StampSlot) : (s.modSlot f).out = s.out := rfl
@[simp] theorem State.modSlot_free (f : StampSlot → StampSlot) : (s.modSlot f).free = s.free := rfl
@[simp] theorem State.modSlot_pending (f : StampSlot → StampSlot) : (s.modSlot f).pending = s.pending := rfl

/-! ### modProving -/

@[simp] theorem State.modProving_pins (f : Proving → Proving) : (s.modProving f).pins = s.pins := rfl
@[simp] theorem State.modProving_rpt (f : Proving → Proving) : (s.modProving f).rpt = { s.rpt with proving := f s.rpt.proving } := rfl
@[simp] theorem State.modProving_smn (f : Proving → Proving) : (s.modProving f).smn = s.smn := rfl
@[simp] theorem State.modProving_lsc (f : Proving → Proving) : (s.modProving f).lsc = s.lsc := rfl
@[simp] theorem State.modProving_trk (f : Proving → Proving) : (s.modProving f).trk = s.trk := rfl
@[simp] theorem State.modProving_scr (f : Proving → Proving) : (s.modProving f).scr = s.scr := rfl
@[simp] theorem State.modProving_tbc (f : Proving → Proving) : (s.modProving f).tbc = s.tbc := rfl
@[simp] theorem State.modProving_fcu (f : Proving → Proving) : (s.modProving f).fcu = s.fcu := rfl
@[simp] theorem State.modProving_rol (f : Proving → Proving) : (s.modProving f).rol = s.rol := rfl
@[simp] theorem State.modProving_mga (f : Proving → Proving) : (s.modProving f).mga = s.mga := rfl
@[simp] theorem State.modProving_cfl (f : Proving → Proving) : (s.modProving f).cfl = s.cfl := rfl
@[simp] theorem State.modProving_tables (f : Proving → Proving) : (s.modProving f).tables = s.tables := rfl
@[simp] theorem State.modProving_out (f : Proving → Proving) : (s.modProving f).out = s.out := rfl
@[simp] theorem State.modProving_free (f : Proving → Proving) : (s.modProving f).free = s.free := rfl
@[simp] theorem State.modProving_pending (f : Proving → Proving) : (s.modProving f).pending = s.pending := rfl

/-! ### setOut -/

@[simp] theorem State.setOut_pins (f : List Emission) : (s.setOut f).pins = s.pins := rfl
@[simp] theorem State.setOut_rpt (f : List Emission) : (s.setOut f).rpt = s.rpt := rfl
@[simp] theorem State.setOut_smn (f : List Emission) : (s.setOut f).smn = s.smn := rfl
@[simp] theorem State.setOut_lsc (f : List Emission) : (s.setOut f).lsc = s.lsc := rfl
@[simp] theorem State.setOut_trk (f : List Emission) : (s.setOut f).trk = s.trk := rfl
@[simp] theorem State.setOut_scr (f : List Emission) : (s.setOut f).scr = s.scr := rfl
@[simp] theorem State.setOut_tbc (f : List Emission) : (s.setOut f).tbc = s.tbc := rfl
@[simp] theorem State.setOut_fcu (f : List Emission) : (s.setOut f).fcu = s.fcu := rfl
@[simp] theorem State.setOut_rol (f : List Emission) : (s.setOut f).rol = s.rol := rfl
@[simp] theorem State.setOut_mga (f : List Emission) : (s.setOut f).mga = s.mga := rfl
@[simp] theorem State.setOut_cfl (f : List Emission) : (s.setOut f).cfl = s.cfl := rfl
@[simp] theorem State.setOut_tables (f : List Emission) : (s.setOut f).tables = s.tables := rfl
@[simp] theorem State.setOut_out (f : List Emission) : (s.setOut f).out = f := rfl
@[simp] theorem State.setOut_free (f : List Emission) : (s.setOut f).free = s.free := rfl
@[simp] theorem State.setOut_pending (f : List Emission) : (s.setOut f).pending = s.pending := rfl

/-! ### setFree -/

@[simp] theorem State.setFree_pins (f : Nat) : (s.setFree f).pins = s.pins := rfl
@[simp] theorem State.setFree_rpt (f : Nat) : (s.setFree f).rpt = s.rpt := rfl
@[simp] theorem State.setFree_smn (f : Nat) : (s.setFree f).smn = s.smn := rfl
@[simp] theorem State.setFree_lsc (f : Nat) : (s.setFree f).lsc = s.lsc := rfl
@[simp] theorem State.setFree_trk (f : Nat) : (s.setFree f).trk = s.trk := rfl
@[simp] theorem State.setFree_scr (f : Nat) : (s.setFree f).scr = s.scr := rfl
@[simp] theorem State.setFree_tbc (f : Nat) : (s.setFree f).tbc = s.tbc := rfl
@[simp] theorem State.setFree_fcu (f : Nat) : (s.setFree f).fcu = s.fcu := rfl
@[simp] theorem State.setFree_rol (f : Nat) : (s.setFree f).rol = s.rol := rfl
@[simp] theorem State.setFree_mga (f : Nat) : (s.setFree f).mga = s.mga := rfl
@[simp] theorem State.setFree_cfl (f : Nat) : (s.setFree f).cfl = s.cfl := rfl
@[simp] theorem State.setFree_tables (f : Nat) : (s.setFree f).tables = s.tables := rfl
@[simp] theorem State.setFree_out (f : Nat) : (s.setFree f).out = s.out := rfl
@[simp] theorem State.setFree_free (f : Nat) : (s.setFree f).free = f := rfl
@[simp] theorem State.setFree_pending (f : Nat) : (s.setFree f).pending = s.pending := rfl

/-! ### setPending -/

@[simp] theorem State.setPending_pins (f : List Instr) : (s.setPending f).pins = s.pins := rfl
@[simp] theorem State.setPending_rpt (f : List Instr) : (s.setPending f).rpt = s.rpt := rfl
@[simp] theorem State.setPending_smn (f : List Instr) : (s.setPending f).smn = s.smn := rfl
@[simp] theorem State.setPending_lsc (f : List Instr) : (s.setPending f).lsc = s.lsc := rfl
@[simp] theorem State.setPending_trk (f : List Instr) : (s.setPending f).trk = s.trk := rfl
@[simp] theorem State.setPending_scr (f : List Instr) : (s.setPending f).scr = s.scr := rfl
@[simp] theorem State.setPending_tbc (f : List Instr) : (s.setPending f).tbc = s.tbc := rfl
@[simp] theorem State.setPending_fcu (f : List Instr) : (s.setPending f).fcu = s.fcu := rfl
@[simp] theorem State.setPending_rol (f : List Instr) : (s.setPending f).rol = s.rol := rfl
@[simp] theorem State.setPending_mga (f : List Instr) : (s.setPending f).mga = s.mga := rfl
@[simp] theorem State.setPending_cfl (f : List Instr) : (s.setPending f).cfl = s.cfl := rfl
@[simp] theorem State.setPending_tables (f : List Instr) : (s.setPending f).tables = s.tables := rfl
@[simp] theorem State.setPending_out (f : List Instr) : (s.setPending f).out = s.out := rfl
@[simp] theorem State.setPending_free (f : List Instr) : (s.setPending f).free = s.free := rfl
@[simp] theorem State.setPending_pending (f : List Instr) : (s.setPending f).pending = f := rfl

end Sys2Proof.Machine
end

