-- ==== Sys2Proof/Laws/Kept.lean ====
section
/-! SUPPORT. What the tracking blocks can do, said once: a property that the elementary updates keep is
kept by every operation of SMN, LSC, TRK, SCR, TBC and FCU, and so by every report and every timer of
theirs. An invariant, or a frame, is then shown on the elementary updates alone. -/

namespace Sys2Proof.Machine

/-- A property kept by the elementary updates that the tracking blocks make. -/
structure Kept (P : State → Prop) : Prop where
  out : ∀ s o, P s → P (s.setOut o)
  free : ∀ s n, P s → P (s.setFree n)
  entry : ∀ s i f, P s → P (s.modEntry i f)
  places : ∀ s f, (∀ t, (f t).table = t.table) → P s → P (s.modTrk f)
  gateA : ∀ s f, P s → P (s.modGateA f)
  fcu : ∀ s f, P s → P (s.modFcu f)
  lsc : ∀ s f, P s → P (s.modLsc f)
  head : ∀ s n f, (∀ h, h.inRange → (f h).inRange) → P s → P (s.modHead n f)
  loader : ∀ s f, (∀ t, (f t).heads = t.heads) → P s → P (s.modTbc f)
  stream : ∀ s e f, (∀ r, r.inRange → (f r).inRange) → P s → P (s.modStream e f)
  jam : ∀ s e f, P s → P (s.modJam e f)
  count : ∀ s c n, P s → P (s.count c n)
  notice : ∀ s n, s.noticeRoom = true → P s → P (s.pushNotice n)
  order : ∀ s d o, s.isRole .active = true → P s → P (s.enqueueOrder d o)
  forget : ∀ s (es : List Expectation), es.Sublist s.rol.expectations → P s →
    P (s.modRol fun r => { r with expectations := es })
  expect : ∀ s₀ s e, P s₀ → s.isRole .shadow = true →
    (s.rol.expectations.length < 16 ∨ s.rol.expectations.length < s₀.rol.expectations.length) →
    P s → P (s.modRol fun r => { r with expectations := r.expectations ++ [e] })
  diverged : ∀ s n, n ≤ 255 → P s → P (s.modRol fun r => { r with divergence := n })
  unfit : ∀ s, P s → P (s.modRol fun r => { r with unfit := true })

variable {P : State → Prop} {s : State}

/-! ### The shared operations -/

theorem Kept.notify (K : Kept P) (k : EventKind) (a : Nat) (h : P s) : P (s.notify k a) := by
  unfold State.notify
  split
  · exact K.notice _ _ ‹_› h
  · exact K.count _ _ _ h

theorem Kept.useFree (K : Kept P) (h : P s) : P s.useFree := K.free _ _ h

theorem Kept.stray (K : Kept P) (h : P s) : P s.stray := K.count _ _ _ h

theorem Kept.record (K : Kept P) (i : Nat) (f : TrackRecord → TrackRecord) (h : P s) : P (s.modRecord i f) :=
  K.entry _ _ _ h

theorem Kept.setPlace (K : Kept P) (i : Nat) (p : Location) (h : P s) : P (s.setPlace i p) := K.entry _ _ _ h

theorem Kept.hydro (K : Kept P) (i : Nat) (f : Hydro → Hydro) (h : P s) : P (s.modHydro i f) :=
  K.record i _ h

theorem Kept.addFinding (K : Kept P) (i : Nat) (f : Finding) (h : P s) : P (s.addFinding i f) :=
  K.record i _ h

theorem Kept.addFindingIf (K : Kept P) (c : Bool) (i : Nat) (f : Finding) (h : P s) :
    P (s.addFindingIf c i f) := by
  unfold State.addFindingIf
  split
  · exact K.addFinding _ _ h
  · exact h

theorem Kept.gateB (K : Kept P) (f : GateRecord RouteB → GateRecord RouteB) (h : P s) : P (s.modGateB f) :=
  K.fcu _ _ h

theorem Kept.slot (K : Kept P) (f : StampSlot → StampSlot) (h : P s) : P (s.modSlot f) := K.fcu _ _ h

theorem Kept.startRamp (K : Kept P) (n : Nat) (h : P s) : P (s.startRamp n) :=
  K.head _ _ _ (fun _ hr => hr) h

theorem Kept.leaveLoaded (K : Kept P) (n : Nat) (h : P s) : P (s.leaveLoaded n) := by
  unfold State.leaveLoaded
  split
  · exact K.startRamp _ h
  · exact h

theorem Kept.diverge (K : Kept P) (h : P s) : P s.diverge := by
  have h1 := K.diverged _ (min (s.rol.divergence + 1) 255) (Nat.min_le_right _ _) (K.count s .divergences 1 h)
  unfold State.diverge
  dsimp only
  split
  · exact K.notify _ _ (K.unfit _ h1)
  · exact h1

theorem Kept.expectationDropped (K : Kept P) (o : Order) (h : P s) : P (s.expectationDropped o) := by
  unfold State.expectationDropped
  split
  · split
    · exact K.leaveLoaded _ h
    · exact h
  · exact h

theorem Kept.dropOldest (K : Kept P) (h : P s) : P s.dropOldestExpectation := by
  unfold State.dropOldestExpectation
  split
  · exact h
  · rename_i e rest heq
    exact K.expectationDropped _ (K.diverge (K.forget _ _ (by simp [heq]) h))

/-! What the expectation list and the role are after each of these. -/

@[simp] theorem State.notify_rol (s : State) (k : EventKind) (a : Nat) : (s.notify k a).rol = s.rol := by
  unfold State.notify
  split <;> rfl

@[simp] theorem State.leaveLoaded_rol (s : State) (n : Nat) : (s.leaveLoaded n).rol = s.rol := by
  unfold State.leaveLoaded
  split <;> rfl

theorem State.diverge_rol (s : State) :
    s.diverge.rol.expectations = s.rol.expectations ∧ s.diverge.rol.role = s.rol.role := by
  unfold State.diverge
  dsimp only
  split <;> simp [State.count]

@[simp] theorem State.expectationDropped_rol (s : State) (o : Order) : (s.expectationDropped o).rol = s.rol := by
  unfold State.expectationDropped
  split
  · split <;> simp
  · rfl

/-- Dropping the oldest expectation leaves the others and the role. -/
theorem State.dropOldest_rol (s : State) :
    s.dropOldestExpectation.rol.expectations = s.rol.expectations.tail ∧
      s.dropOldestExpectation.rol.role = s.rol.role := by
  unfold State.dropOldestExpectation
  split
  · simp [*]
  · rename_i heq
    simp [State.diverge_rol, heq]

theorem Kept.expecting (K : Kept P) (d : Node) (o : Order) (hr : s.isRole .shadow = true) (h : P s) :
    P (s.expect d o) := by
  unfold State.expect
  dsimp only
  split
  · exact K.expect s _ _ h hr (Or.inl ‹_›) h
  · rename_i hlen
    have hd := s.dropOldest_rol
    refine K.expect s _ _ h ?_ (Or.inr ?_) (K.dropOldest h)
    · simpa [State.isRole, hd.2] using hr
    · rw [hd.1, List.length_tail]
      simp only [expectationCapacity] at hlen
      omega

theorem Kept.send (K : Kept P) (d : Option Node) (o : Order) (h : P s) : P (s.send d o) := by
  unfold State.send
  split
  · rename_i ht
    split
    · exact K.count _ _ _ h
    · split
      · exact K.order _ _ _ ‹_› h
      · rename_i ha
        refine K.expecting _ _ ?_ h
        simpa [State.tracking, ha] using ht
  · exact h

theorem Kept.sendHead (K : Kept P) (n : Nat) (o : Order) (h : P s) : P (s.sendHead n o) := K.send _ _ h

theorem Kept.addCause (K : Kept P) (c : Cause) (h : P s) : P (s.addCause c) := by
  unfold State.addCause
  dsimp only
  split
  · exact K.send _ _ (K.lsc _ _ h)
  · exact K.lsc _ _ h

theorem Kept.removeCause (K : Kept P) (c : Cause) (h : P s) : P (s.removeCause c) := by
  unfold State.removeCause
  dsimp only
  split
  · exact K.send _ _ (K.lsc _ _ h)
  · exact K.lsc _ _ h

theorem Kept.reportIq (K : Kept P) (n : Nat) (h : P s) : P (s.reportIq n) := by
  unfold State.reportIq
  dsimp only
  refine K.lsc _ _ ?_
  split
  · split
    · exact K.send _ _ (K.lsc _ _ h)
    · exact h
  · split
    · exact K.send _ _ (K.lsc _ _ h)
    · split
      · exact K.send _ _ h
      · exact h

theorem Kept.setIq (K : Kept P) (q : List Nat) (h : P s) : P (s.setIq q) :=
  K.reportIq _ (K.places _ _ (fun _ => rfl) h)

theorem Kept.reserve (K : Kept P) (i : Nat) (q : Queue) (h : P s) : P (s.reserve i q) := K.record _ _ h

theorem Kept.dropReservation (K : Kept P) (i : Nat) (h : P s) : P (s.dropReservation i) := K.record _ _ h

theorem Kept.lodge (K : Kept P) (q : Queue) (c : Claimant) (h : P s) : P (s.lodge q c) :=
  K.places _ _ (fun _ => rfl) h

theorem Kept.withdrawEntry (K : Kept P) (i : Nat) (h : P s) : P (s.withdrawEntry i) :=
  K.places _ _ (fun _ => rfl) h

theorem Kept.withdrawSlot (K : Kept P) (h : P s) : P s.withdrawSlot := K.places _ _ (fun _ => rfl) h

theorem Kept.joinGq (K : Kept P) (it : Item) (h : P s) : P (s.joinGq it) := by
  have h1 : P (s.modTrk fun t => { t with gq := t.gq ++ [it] }) := K.places _ _ (fun _ => rfl) h
  unfold State.joinGq
  split
  · exact K.setPlace _ _ h1
  · exact h1

theorem Kept.joinXq (K : Kept P) (i : Nat) (h : P s) : P (s.joinXq i) :=
  K.setPlace _ _ (K.places _ _ (fun _ => rfl) h)

theorem Kept.joinFq (K : Kept P) (i : Nat) (h : P s) : P (s.joinFq i) :=
  K.setPlace _ _ (K.places _ _ (fun _ => rfl) h)

theorem Kept.closeOldest (K : Kept P) (i : Nat) (rest : List Nat) (h : P s) : P (s.closeOldest i rest) :=
  K.places _ _ (fun _ => rfl) (K.entry _ _ _ (K.count _ _ _ h))

theorem Kept.serveClosingOnce (K : Kept P) (h : P s) : P s.serveClosingOnce := by
  unfold State.serveClosingOnce
  split
  · exact h
  · split
    · split
      · exact K.closeOldest _ _ (K.useFree (K.notice _ _ ‹_› h))
      · exact h
    · split
      · exact K.closeOldest _ _ h
      · exact h

theorem Kept.serveClosingTimes (K : Kept P) (n : Nat) (h : P s) : P (s.serveClosingTimes n) := by
  induction n generalizing s with
  | zero => exact h
  | succ n ih => exact ih (K.serveClosingOnce h)

theorem Kept.serveClosing (K : Kept P) (h : P s) : P s.serveClosing := K.serveClosingTimes _ h

theorem Kept.joinClosing (K : Kept P) (i : Nat) (h : P s) : P (s.joinClosing i) :=
  K.setPlace _ _ (K.places _ _ (fun _ => rfl) h)

theorem Kept.closeAndNotify (K : Kept P) (k : EventKind) (a : Nat) (h : P s) : P (s.closeAndNotify k a) := by
  unfold State.closeAndNotify
  split
  · exact K.notify _ _ (K.serveClosing (K.useFree h))
  · exact K.serveClosing (K.notify _ _ (K.useFree h))

/-! ### Composing and sending a stamp -/

theorem Kept.sendImage (K : Kept P) (img : Image) (h : P s) : P (s.sendImage img) := by
  unfold State.sendImage
  dsimp only
  generalize List.range img.segments = ks
  generalize s.slotRef = ref
  induction ks generalizing s with
  | nil => exact h
  | cons k ks ih => exact ih (K.send _ _ h)

theorem Kept.holdAndSend (K : Kept P) (cols : List Column) (st : Nat) (h : P s) : P (s.holdAndSend cols st) :=
  K.sendImage _ (K.slot _ h)

theorem Kept.setStampStatus (K : Kept P) (i : Nat) (st : StampStatus) (h : P s) : P (s.setStampStatus i st) :=
  K.record _ _ h

theorem Kept.composeSlot (K : Kept P) (h : P s) : P s.composeSlot := by
  unfold State.composeSlot
  split
  · exact h
  · exact K.holdAndSend _ _ h
  · dsimp only
    split
    · exact K.setStampStatus _ _ (K.holdAndSend _ _ h)
    · exact K.setStampStatus _ _ (K.holdAndSend _ _ h)
    · exact K.setStampStatus _ _ (K.holdAndSend _ _ (K.addFinding _ _ h))

theorem Kept.takeStampPlace (K : Kept P) (h : P s) : P s.takeStampPlace := by
  unfold State.takeStampPlace
  refine K.composeSlot (K.slot _ ?_)
  split
  · exact K.reserve _ _ h
  · exact h

/-! ### Grants, closings, the loader arbiter -/

theorem Kept.sendRouteA (K : Kept P) (h : P s) : P s.sendRouteA := by
  unfold State.sendRouteA
  split
  · exact K.send _ _ h
  · exact h

theorem Kept.admitGateA (K : Kept P) (i : Nat) (h : P s) : P (s.admitGateA i) := by
  unfold State.admitGateA
  dsimp only
  exact K.gateA _ _ (K.setIq _ (K.setPlace _ _ (K.places _ _ (fun _ => rfl) (K.record _ _ (K.sendRouteA h)))))

theorem Kept.sendRelease (K : Kept P) (n i : Nat) (h : P s) : P (s.sendRelease n i) :=
  K.head _ _ _ (fun _ hr => hr) (K.sendHead _ _ h)

theorem Kept.grantTo (K : Kept P) (c : Claim) (h : P s) : P (s.grantTo c) := by
  unfold State.grantTo
  split
  · exact K.admitGateA _ (K.reserve _ _ h)
  · exact K.sendRelease _ _ (K.reserve _ _ h)
  · exact K.takeStampPlace h

theorem Kept.grant (K : Kept P) (q : Queue) (h : P s) : P (s.grant q) := by
  unfold State.grant
  split
  · split
    · exact h
    · exact K.grantTo _ (K.places _ _ (fun _ => rfl) h)
  · exact h

theorem Kept.releaseReservation (K : Kept P) (i : Nat) (h : P s) : P (s.releaseReservation i) := by
  unfold State.releaseReservation
  split
  · exact h
  · exact K.grant _ (K.dropReservation _ h)

theorem Kept.closeLost (K : Kept P) (i : Nat) (h : P s) : P (s.closeLost i) :=
  K.joinClosing _ (K.withdrawEntry _ (K.releaseReservation _ (K.record _ _ h)))

theorem Kept.overrun (K : Kept P) (h : P s) : P s.overrun := K.addCause _ (K.count _ _ _ h)

theorem Kept.closeForRoom (K : Kept P) (i : Nat) (h : P s) : P (s.closeForRoom i) :=
  K.closeAndNotify _ _ (K.overrun (K.closeLost _ h))

theorem Kept.arriveXq (K : Kept P) (i : Nat) (h : P s) : P (s.arriveXq i) := by
  unfold State.arriveXq
  split
  · exact K.joinXq _ h
  · exact K.closeForRoom _ h

theorem Kept.assignTo (K : Kept P) (n i : Nat) (b : Bool) (h : P s) : P (s.assignTo n i b) := by
  unfold State.assignTo
  refine K.grant _ (K.loader _ _ (fun _ => rfl) (K.head _ _ _ (fun _ hr => hr) (K.setPlace _ _
    (K.places _ _ (fun _ => rfl) ?_))))
  split
  · exact K.send _ _ h
  · exact h

theorem Kept.assignLoader (K : Kept P) (h : P s) : P s.assignLoader := by
  unfold State.assignLoader
  split
  · exact K.assignTo _ _ _ h
  · exact h

theorem Kept.idleLoader (K : Kept P) (h : P s) : P s.idleLoader := K.loader _ _ (fun _ => rfl) h

theorem Kept.arriveFq (K : Kept P) (i : Nat) (h : P s) : P (s.arriveFq i) := by
  unfold State.arriveFq
  split
  · exact K.assignLoader (K.joinFq _ h)
  · exact K.closeForRoom _ h

theorem Kept.vacateHead (K : Kept P) (n : Nat) (h : P s) : P (s.vacateHead n) := by
  unfold State.vacateHead
  split
  · exact K.head _ _ _ (fun _ _ => Nat.zero_le _) h
  · exact K.assignLoader (K.head _ _ _ (fun _ _ => Nat.zero_le _) h)

end Sys2Proof.Machine
end

