-- ==== Sys2Proof/Laws/KeptBlocks.lean ====
section
/-! SUPPORT. `Kept` carried through the blocks: intake, gate A, the test bank, the finish cell, gate B, the
streams and the jam qualifiers, up to a report accepted. -/

namespace Sys2Proof.Machine

variable {P : State → Prop} {s : State}

/-! ### Intake and gate A -/

theorem Kept.screenIdentity (K : Kept P) (i : Nat) (id : Identity) (h : P s) : P (s.screenIdentity i id) := by
  unfold State.screenIdentity
  dsimp only
  repeat' split
  all_goals
    repeat first
      | exact h
      | refine K.addFindingIf _ _ _ ?_
      | refine K.record _ _ ?_

theorem Kept.takeEntry (K : Kept P) (i : Nat) (h : P s) : P (s.takeEntry i) := K.setIq _ (K.entry _ _ _ h)

theorem Kept.intakeOverrun (K : Kept P) (h : P s) : P s.intakeOverrun := K.notify _ _ (K.overrun h)

theorem Kept.inductTag (K : Kept P) (e : Nat) (tag : TagRead) (h : P s) : P (s.inductTag e tag) := by
  unfold State.inductTag
  split
  · exact K.intakeOverrun h
  · split
    · exact K.intakeOverrun h
    · refine K.addFindingIf _ _ _ (K.addFindingIf _ _ _ ?_)
      split
      · exact K.addFinding _ _ (K.takeEntry _ h)
      · exact K.screenIdentity _ _ (K.takeEntry _ h)

theorem Kept.checkWeight (K : Kept P) (i w : Nat) (b : Bool) (h : P s) : P (s.checkWeight i w b) := by
  unfold State.checkWeight
  split
  · exact K.addFinding _ _ h
  · split
    · split
      · exact h
      · split
        · exact K.addFinding _ _ h
        · exact h
    · exact h

theorem Kept.takeWeight (K : Kept P) (e : Nat) (g : BitVec 32) (b : Bool) (h : P s) :
    P (s.takeWeight e g b) := by
  unfold State.takeWeight
  split
  · exact K.count _ _ _ h
  · exact K.checkWeight _ _ _ (K.addFindingIf _ _ _ (K.record _ _ h))

theorem Kept.takeGrade (K : Kept P) (e : Nat) (g : Byte) (h : P s) : P (s.takeGrade e g) := by
  unfold State.takeGrade
  split
  · exact K.count _ _ _ h
  · dsimp only
    split
    · exact K.addFinding _ _ (K.addFindingIf _ _ _ (K.record _ _ h))
    · exact K.addFindingIf _ _ _ (K.record _ _ h)

theorem Kept.addMissing (K : Kept P) (i : Nat) (h : P s) : P (s.addMissing i) :=
  K.addFindingIf _ _ _ (K.addFindingIf _ _ _ h)

theorem Kept.sendOrDeferA (K : Kept P) (i : Nat) (r : RouteA) (h : P s) : P (s.sendOrDeferA i r) := by
  have h1 : P (s.modGateA fun g => { g with ordered := some r }) := K.gateA _ _ h
  unfold State.sendOrDeferA
  dsimp only
  split
  · exact K.admitGateA _ h1
  · split
    · exact K.admitGateA _ (K.reserve _ _ h1)
    · exact K.gateA _ _ (K.record _ _ (K.lodge _ _ h1))

theorem Kept.serveGateA (K : Kept P) (i : Nat) (a : Byte) (h : P s) : P (s.serveGateA i a) :=
  K.sendOrDeferA _ _ (K.gateA _ _ (K.addMissing _ h))

theorem Kept.rerouteGateA (K : Kept P) (i : Nat) (h : P s) : P (s.rerouteGateA i) := by
  unfold State.rerouteGateA
  split
  · dsimp only
    split
    · exact K.addMissing _ h
    · exact K.sendOrDeferA _ _ (K.withdrawEntry _ (K.addMissing _ h))
  · exact h

theorem Kept.idleGateA (K : Kept P) (a : Byte) (h : P s) : P (s.idleGateA a) := by
  unfold State.idleGateA
  split
  · exact K.stray h
  · split
    · exact K.stray h
    · exact K.serveGateA _ _ h

theorem Kept.leaveGateA (K : Kept P) (h : P s) : P s.leaveGateA :=
  K.gateA _ _ (K.places _ _ (fun _ => rfl) h)

theorem Kept.passReturn (K : Kept P) (i : Nat) (h : P s) : P (s.passReturn i) :=
  K.serveClosing (K.joinClosing _ (K.record _ _ h))

theorem Kept.passOrderedA (K : Kept P) (i : Nat) (r : RouteA) (h : P s) : P (s.passOrderedA i r) := by
  have h1 : P (((s.recordRouteA i r).dropReservation i).leaveGateA) :=
    K.leaveGateA (K.dropReservation _ (K.record _ _ h))
  unfold State.passOrderedA
  dsimp only
  split
  · exact K.assignLoader (K.joinFq _ h1)
  · exact K.joinXq _ h1
  · exact K.passReturn _ h1

theorem Kept.deviateA (K : Kept P) (i : Nat) (r : RouteA) (h : P s) : P (s.deviateA i r) := by
  have h1 : P ((((s.addFinding i .routeDeviation).recordRouteA i r).releaseReservation i).leaveGateA) :=
    K.leaveGateA (K.releaseReservation _ (K.record _ _ (K.addFinding _ _ h)))
  unfold State.deviateA
  dsimp only
  split
  · exact K.arriveFq _ h1
  · exact K.arriveXq _ h1
  · exact K.passReturn _ h1

theorem Kept.implicitPassA (K : Kept P) (h : P s) : P s.implicitPassA := by
  unfold State.implicitPassA
  split
  · exact K.passOrderedA _ _ (K.addFinding _ _ h)
  · exact K.leaveGateA h

theorem Kept.atGateA (K : Kept P) (a : Byte) (h : P s) : P (s.atGateA a) := by
  unfold State.atGateA
  split
  · exact K.idleGateA _ h
  · split
    · exact h
    · exact K.gateA _ _ h
  · split
    · exact K.sendRouteA h
    · exact K.idleGateA _ (K.implicitPassA h)

theorem Kept.passedA (K : Kept P) (r : Byte) (h : P s) : P (s.passedA r) := by
  unfold State.passedA
  split
  · split
    · split
      · exact K.passOrderedA _ _ h
      · exact K.deviateA _ _ h
    · exact K.stray h
  · exact K.stray h

/-! ### The test bank -/

theorem Kept.fixVerdict (K : Kept P) (i : Nat) (v : Verdict) (h : P s) : P (s.fixVerdict i v) := K.hydro _ _ h

theorem Kept.fixOutcome (K : Kept P) (n : Nat) (h : P s) : P (s.fixOutcome n) :=
  K.head _ _ _ (fun _ hr => hr) h

theorem Kept.stopStep (K : Kept P) (n : Nat) (h : P s) : P (s.stopStep n) :=
  K.head _ _ _ (fun _ hr => hr) h

theorem Kept.enterStep (K : Kept P) (n : Nat) (st : HeadState) (k : StepKind) (t : Nat) (h : P s) :
    P (s.enterStep n st k t) := K.head _ _ _ (fun _ hr => hr) h

theorem Kept.sendVent (K : Kept P) (n i : Nat) (h : P s) : P (s.sendVent n i) := K.sendHead _ _ h

theorem Kept.startVent (K : Kept P) (n i : Nat) (h : P s) : P (s.startVent n i) :=
  K.enterStep _ _ _ _ (K.sendVent _ _ h)

theorem Kept.enterDone (K : Kept P) (n i : Nat) (h : P s) : P (s.enterDone n i) := by
  have h1 : P (s.modHead n fun h => { h with state := .done, timer := none }) :=
    K.head _ _ _ (fun _ hr => hr) h
  unfold State.enterDone
  dsimp only
  split
  · split
    · exact K.sendRelease _ _ (K.reserve _ _ h1)
    · exact K.head _ _ _ (fun _ hr => hr) (K.lodge _ _ h1)
  · exact h1

theorem Kept.issueTest (K : Kept P) (n i : Nat) (h : P s) : P (s.issueTest n i) := by
  unfold State.issueTest
  dsimp only
  have h1 : P (((s.modHydro i (Hydro.restarted ((s.head n).retest == .automatic))).modHead n fun h =>
      { h with window := [], retest := .none,
               degradedSeen := ((s.modHydro i (Hydro.restarted
                 ((s.head n).retest == .automatic))).headStation n).any
                 (s.modHydro i (Hydro.restarted ((s.head n).retest == .automatic))).degraded,
               timer := none })) :=
    K.head _ _ _ (fun _ _ => Nat.zero_le _) (K.hydro _ _ h)
  split
  · exact K.startRamp _ (K.sendHead _ _ h1)
  · exact K.head _ _ _ (fun _ hr => hr) (K.sendHead _ _ h1)

theorem Kept.decideTest (K : Kept P) (n i : Nat) (h : P s) : P (s.decideTest n i) := by
  unfold State.decideTest
  dsimp only
  split
  · exact K.enterDone _ _ (K.fixOutcome _ (K.fixVerdict _ _ h))
  · exact K.issueTest _ _ h

theorem Kept.takeLoaded (K : Kept P) (b : Byte) (h : P s) : P (s.takeLoaded b) := by
  unfold State.takeLoaded
  dsimp only
  split
  · split
    · exact K.assignLoader (K.decideTest _ _ (K.idleLoader h))
    · exact K.stray h
  · exact K.stray h

theorem Kept.loadExpired (K : Kept P) (h : P s) : P s.loadExpired := by
  unfold State.loadExpired
  split
  · split
    · exact K.assignLoader (K.closeAndNotify _ _ (K.closeLost _ (K.idleLoader
        (K.head _ _ _ (fun _ hr => hr) h))))
    · exact h
  · exact h

theorem Kept.finalInvalid (K : Kept P) (n i : Nat) (h : P s) : P (s.finalInvalid n i) :=
  K.fixOutcome _ (K.addFinding _ _ (K.fixVerdict _ _ h))

theorem Kept.invalidPressurised (K : Kept P) (n i : Nat) (h : P s) : P (s.invalidPressurised n i) := by
  unfold State.invalidPressurised
  split
  · exact K.startVent _ _ (K.head _ _ _ (fun _ hr => hr) h)
  · exact K.startVent _ _ (K.finalInvalid _ _ (K.stopStep _ h))

theorem Kept.invalidMeasuring (K : Kept P) (n i : Nat) (h : P s) : P (s.invalidMeasuring n i) := by
  unfold State.invalidMeasuring
  split
  · exact K.issueTest _ _ (K.head _ _ _ (fun _ hr => hr) h)
  · exact K.enterDone _ _ (K.finalInvalid _ _ (K.stopStep _ h))

theorem Kept.overpressure (K : Kept P) (n i : Nat) (h : P s) : P (s.overpressure n i) :=
  K.startVent _ _ (K.fixOutcome _ (K.addFinding _ _ (K.fixVerdict _ _ (K.stopStep _ h))))

theorem Kept.raisePeak (K : Kept P) (i p : Nat) (h : P s) : P (s.raisePeak i p) := K.hydro _ _ h

theorem Kept.pressurizingSample (K : Kept P) (n i p : Nat) (h : P s) : P (s.pressurizingSample n i p) := by
  unfold State.pressurizingSample
  dsimp only
  split
  · exact K.overpressure _ _ h
  · split
    · exact K.enterStep _ _ _ _ (K.head _ _ _ (fun _ _ => Nat.zero_le _) h)
    · exact h

theorem Kept.holdingSample (K : Kept P) (n i p : Nat) (h : P s) : P (s.holdingSample n i p) := by
  unfold State.holdingSample
  dsimp only
  split
  · exact K.overpressure _ _ h
  · split
    · exact K.invalidPressurised _ _ h
    · exact h

theorem Kept.ventEnded (K : Kept P) (n i : Nat) (h : P s) : P (s.ventEnded n i) := by
  unfold State.ventEnded
  dsimp only
  split
  · exact K.enterDone _ _ (K.stopStep _ h)
  · split
    · exact K.issueTest _ _ (K.stopStep _ h)
    · exact K.enterStep _ _ _ _ (K.stopStep _ h)

theorem Kept.takePressure (K : Kept P) (n : Nat) (b : Half) (h : P s) : P (s.takePressure n b) := by
  unfold State.takePressure
  split
  · exact K.stray h
  · dsimp only
    split
    iterate 5 exact K.stray h
    · exact K.pressurizingSample _ _ _ (K.raisePeak _ _ (K.leaveLoaded _ h))
    · exact K.pressurizingSample _ _ _ (K.raisePeak _ _ h)
    · exact K.holdingSample _ _ _ (K.raisePeak _ _ h)
    · split
      · exact K.ventEnded _ _ (K.raisePeak _ _ h)
      · exact K.raisePeak _ _ h
    · exact K.raisePeak _ _ h
    · exact K.raisePeak _ _ h

/-- R85: the window holds at most 4 values after one more has entered. -/
theorem pushSample_length (v : Nat) (w : List Nat) : (pushSample v w).length ≤ 4 := by
  simp only [pushSample, List.length_drop]
  omega

theorem Kept.reachVerdict (K : Kept P) (n i ep : Nat) (h : P s) : P (s.reachVerdict n i ep) := by
  unfold State.reachVerdict
  dsimp only
  split
  · split
    · exact K.invalidMeasuring _ _ (K.hydro _ _ h)
    · exact K.record _ _ (K.enterDone _ _ (K.fixOutcome _ (K.fixVerdict _ _ (K.hydro _ _ h))))
  · exact K.enterDone _ _ (K.fixOutcome _ (K.addFinding _ _ (K.fixVerdict _ _ (K.hydro _ _ h))))

theorem Kept.takeExpansion (K : Kept P) (n : Nat) (v : Half) (h : P s) : P (s.takeExpansion n v) := by
  unfold State.takeExpansion
  split
  · exact K.stray h
  · dsimp only
    split
    iterate 7 exact K.stray h
    · exact K.stray (K.leaveLoaded _ h)
    · exact K.head _ _ _ (fun _ _ => pushSample_length _ _) h
    · exact h
    · exact K.reachVerdict _ _ _ (K.stopStep _ h)

theorem Kept.rampExpired (K : Kept P) (n : Nat) (h : P s) : P (s.rampExpired n) := by
  unfold State.rampExpired
  split
  · exact K.invalidPressurised _ _ h
  · exact h

theorem Kept.holdExpired (K : Kept P) (n : Nat) (h : P s) : P (s.holdExpired n) := by
  unfold State.holdExpired
  split
  · exact h
  · dsimp only
    split
    · exact K.invalidPressurised _ _ h
    · split
      · exact K.invalidPressurised _ _ (K.hydro _ _ h)
      · exact K.startVent _ _ (K.hydro _ _ h)

theorem Kept.markFaulted (K : Kept P) (n : Nat) (h : P s) : P (s.markFaulted n) :=
  K.head _ _ _ (fun _ hr => hr) h

theorem Kept.ventExpired (K : Kept P) (n : Nat) (h : P s) : P (s.ventExpired n) := by
  unfold State.ventExpired
  split
  · exact h
  · exact K.enterDone _ _ (K.notify _ _ (K.markFaulted _ (K.hydro _ _ (K.addFinding _ _ h))))

theorem Kept.settleExpired (K : Kept P) (n : Nat) (h : P s) : P (s.settleExpired n) := by
  unfold State.settleExpired
  split
  · exact h
  · exact K.enterStep _ _ _ _ h

theorem Kept.measureExpired (K : Kept P) (n : Nat) (h : P s) : P (s.measureExpired n) := by
  unfold State.measureExpired
  split
  · exact h
  · exact K.invalidMeasuring _ _ h

theorem Kept.unloadEarly (K : Kept P) (n i : Nat) (h : P s) : P (s.unloadEarly n i) := by
  unfold State.unloadEarly
  dsimp only
  have h1 := K.stopStep n h
  have h2 : P (if (s.head n).state = .assigned then (s.stopStep n).idleLoader else s.stopStep n) := by
    split
    · exact K.idleLoader h1
    · exact h1
  have h3 := fun (t : State) (ht : P t) => show P (if (s.head n).fixed = true then t
      else (t.fixVerdict i .invalid).addFinding i .hydroInvalid) by
    split
    · exact ht
    · exact K.addFinding _ _ (K.fixVerdict _ _ ht)
  split
  · exact K.assignLoader (K.vacateHead _ (K.arriveXq _ (h3 _ (K.idleLoader h1))))
  · exact K.vacateHead _ (K.arriveXq _ (h3 _ h1))

theorem Kept.takeUnloaded (K : Kept P) (n : Nat) (h : P s) : P (s.takeUnloaded n) := by
  unfold State.takeUnloaded
  split
  · exact K.stray h
  · split
    · exact K.vacateHead _ (K.joinXq _ (K.dropReservation _ h))
    · exact K.vacateHead _ (K.arriveXq _ (K.withdrawEntry _ h))
    · exact K.unloadEarly _ _ h

theorem Kept.faultLoaded (K : Kept P) (n i : Nat) (h : P s) : P (s.faultLoaded n i) := by
  unfold State.faultLoaded
  refine K.enterDone _ _ (K.markFaulted _ ?_)
  have h1 := fun f => K.stopStep n (K.hydro i f (K.addFinding i .headFault h))
  split
  · refine K.sendVent _ _ ?_
    split
    · exact K.assignLoader (K.idleLoader (h1 _))
    · exact h1 _
  · split
    · exact K.assignLoader (K.idleLoader (h1 _))
    · exact h1 _

theorem Kept.takeHeadFault (K : Kept P) (n : Nat) (h : P s) : P (s.takeHeadFault n) := by
  have h1 := K.notify .headFault n h
  unfold State.takeHeadFault
  dsimp only
  split
  · exact K.head _ _ _ (fun _ hr => hr) h1
  · exact K.faultLoaded _ _ h1

theorem Kept.headDegraded (K : Kept P) (n : Nat) (h : P s) : P (s.headDegraded n) := by
  unfold State.headDegraded
  split
  · exact K.head _ _ _ (fun _ hr => hr) h
  · exact h

theorem Kept.implicitUnload (K : Kept P) (n i : Nat) (h : P s) : P (s.implicitUnload n i) := by
  unfold State.implicitUnload
  refine K.vacateHead _ (K.setPlace _ _ (K.slot _ ?_))
  split
  · exact K.releaseReservation _ h
  · exact K.withdrawEntry _ h
  · exact h

theorem Kept.reassign (K : Kept P) (a b i : Nat) (h : P s) : P (s.reassign a b i) := by
  unfold State.reassign
  dsimp only
  exact K.assignLoader (K.setPlace _ _ (K.head _ _ _ (fun _ _ => Nat.zero_le _)
    (K.loader _ _ (fun _ => rfl) (K.head _ _ _ (fun _ hr => hr) h))))

theorem Kept.moveHead (K : Kept P) (i m : Nat) (h : P s) : P (s.moveHead i m).2 := by
  unfold State.moveHead
  split
  · exact h
  · split
    · exact h
    · split
      · exact K.reassign _ _ _ h
      · split
        · exact K.assignTo _ _ _ h
        · exact h

/-! ### The finish cell and gate B -/

theorem Kept.answerRepeat (K : Kept P) (h : P s) : P s.answerRepeat := by
  unfold State.answerRepeat
  split
  · exact K.sendImage _ h
  · exact h

theorem Kept.clearSlot (K : Kept P) (h : P s) : P s.clearSlot := K.slot _ h

theorem Kept.slotToGq (K : Kept P) (h : P s) : P s.slotToGq := by
  unfold State.slotToGq
  split
  · exact h
  · exact K.joinGq _ (K.dropReservation _ (K.clearSlot h))
  · exact K.joinGq _ (K.clearSlot h)

theorem Kept.slotToGqUnreserved (K : Kept P) (h : P s) : P s.slotToGqUnreserved := by
  have h1 := K.withdrawSlot h
  unfold State.slotToGqUnreserved
  dsimp only
  split
  · exact h1
  · split
    · exact K.joinGq _ (K.clearSlot h1)
    · exact K.closeForRoom _ (K.clearSlot h1)
  · split
    · exact K.joinGq _ (K.clearSlot h1)
    · exact K.notify _ _ (K.overrun (K.clearSlot h1))

theorem Kept.overtake (K : Kept P) (h : P s) : P s.overtake := by
  have h1 : P (match s.fcu.slot.content with
      | .entry i => (s.setStampStatus i .unconfirmed).addFinding i .stampUnconfirmed
      | _ => s) := by
    split
    · exact K.addFinding _ _ (K.setStampStatus _ _ h)
    · exact h
  unfold State.overtake
  dsimp only
  split
  · exact K.slotToGq h1
  · exact K.slotToGqUnreserved h1

theorem Kept.fromXq (K : Kept P) (i : Nat) (h : P s) : P (s.fromXq i) :=
  K.grant _ (K.setPlace _ _ (K.slot _ (K.places _ _ (fun _ => rfl) h)))

theorem Kept.stranger (K : Kept P) (r : Option Identity) (h : P s) : P (s.stranger r) :=
  K.notify _ _ (K.count _ _ _ (K.slot _ h))

theorem Kept.fromHead (K : Kept P) (n i : Nat) (h : P s) : P (s.fromHead n i) :=
  K.addFinding _ _ (K.implicitUnload _ _ h)

theorem Kept.unmatched (K : Kept P) (r : Option Identity) (h : P s) : P (s.unmatched r) := by
  unfold State.unmatched
  split
  · exact K.fromXq _ (K.addFinding _ _ h)
  · exact K.stranger _ h

theorem Kept.search (K : Kept P) (r : Option Identity) (h : P s) : P (s.search r) := by
  unfold State.search
  split
  · exact K.unmatched _ h
  · split
    · split
      · exact K.fromXq _ h
      · exact K.fromXq _ (K.addFinding _ _ h)
    · split
      · exact K.fromHead _ _ h
      · exact K.unmatched _ h

theorem Kept.requestStamp (K : Kept P) (h : P s) : P s.requestStamp := by
  unfold State.requestStamp
  split
  · exact K.takeStampPlace h
  · exact K.slot _ (K.lodge _ _ h)

theorem Kept.doubtSlot (K : Kept P) (b : Bool) (h : P s) : P (s.doubtSlot b) := by
  unfold State.doubtSlot
  split
  · exact K.addFindingIf _ _ _ h
  · exact h

theorem Kept.takeStampTag (K : Kept P) (e : Nat) (t : TagRead) (h : P s) : P (s.takeStampTag e t) := by
  unfold State.takeStampTag
  dsimp only
  split
  · exact K.answerRepeat h
  · refine K.requestStamp (K.doubtSlot _ (K.search _ ?_))
    split
    · exact h
    · exact K.overtake h

theorem Kept.takeStampDone (K : Kept P) (h : P s) : P s.takeStampDone := by
  unfold State.takeStampDone
  split
  · exact K.slotToGq (K.record _ _ h)
  · exact K.slotToGq h
  · exact K.stray h

theorem Kept.takeStampFault (K : Kept P) (h : P s) : P s.takeStampFault := by
  unfold State.takeStampFault
  split
  · exact K.slotToGq (K.addFinding _ _ (K.setStampStatus _ _ h))
  · exact K.slotToGq h
  · exact K.stray h

theorem Kept.sendRouteB (K : Kept P) (h : P s) : P s.sendRouteB := by
  unfold State.sendRouteB
  split
  · exact K.send _ _ h
  · exact h

theorem Kept.serveGateB (K : Kept P) (it : Item) (a : Byte) (h : P s) : P (s.serveGateB it a) :=
  K.sendRouteB (K.gateB _ h)

theorem Kept.idleGateB (K : Kept P) (a : Byte) (h : P s) : P (s.idleGateB a) := by
  unfold State.idleGateB
  split
  · exact K.stray h
  · split
    · exact K.stray h
    · exact K.serveGateB _ _ h

theorem Kept.leaveGq (K : Kept P) (it : Item) (h : P s) : P (s.leaveGq it) := by
  have h1 : P ((s.modTrk fun t => { t with gq := t.gq.tail }).modGateB GateRecord.passed) :=
    K.gateB _ (K.places _ _ (fun _ => rfl) h)
  unfold State.leaveGq
  dsimp only
  split
  · exact K.serveClosing (K.joinClosing _ h1)
  · exact h1

theorem Kept.passOrderedB (K : Kept P) (it : Item) (r : RouteB) (h : P s) : P (s.passOrderedB it r) := by
  unfold State.passOrderedB
  refine K.grant _ (K.leaveGq _ ?_)
  split
  · exact K.record _ _ h
  · exact h

theorem Kept.deviateB (K : Kept P) (it : Item) (r : RouteB) (h : P s) : P (s.deviateB it r) := by
  unfold State.deviateB
  refine K.grant _ (K.leaveGq _ ?_)
  split
  · exact K.record _ _ (K.addFinding _ _ h)
  · exact K.notify _ _ h

theorem Kept.implicitPassB (K : Kept P) (h : P s) : P s.implicitPassB := by
  unfold State.implicitPassB
  split
  · refine K.passOrderedB _ _ ?_
    split
    · exact K.addFinding _ _ h
    · exact h
  · exact K.gateB _ h

theorem Kept.atGateB (K : Kept P) (a : Byte) (h : P s) : P (s.atGateB a) := by
  unfold State.atGateB
  split
  · split
    · exact K.sendRouteB h
    · exact K.idleGateB _ (K.implicitPassB h)
  · exact K.idleGateB _ h

theorem Kept.passedB (K : Kept P) (r : Byte) (h : P s) : P (s.passedB r) := by
  unfold State.passedB
  split
  · split
    · split
      · exact K.passOrderedB _ _ h
      · exact K.deviateB _ _ h
    · exact K.stray h
  · exact K.stray h

theorem Kept.rerouteGateB (K : Kept P) (i : Nat) (h : P s) : P (s.rerouteGateB i) := by
  unfold State.rerouteGateB
  split
  · dsimp only
    split
    · exact h
    · exact K.sendRouteB (K.gateB _ h)
  · exact h

/-! ### Streams and jam qualifiers -/

/-- R146: an accepted frame leaves a record within its ranges. -/
theorem StreamRecord.accept_inRange (seq : Byte) (gap : Bool) (r : StreamRecord) :
    (r.accept seq gap).inRange := by
  cases gap <;>
    simp only [StreamRecord.accept, StreamRecord.inRange, pushMark, List.length_drop] <;> constructor <;>
    simp <;> omega

theorem Kept.streamChanged (K : Kept P) (e : Nat) (w : StreamState) (h : P s) : P (s.streamChanged e w) := by
  unfold State.streamChanged
  split
  · have h1 := K.notify .stationDegraded (s.nodeArg e) h
    dsimp only
    split
    · exact K.headDegraded _ h1
    · exact h1
  · exact K.notify _ _ h
  · exact h

theorem Kept.markLost (K : Kept P) (r : StationRole) (i : Nat) (h : P s) : P (s.markLost r i) := by
  unfold State.markLost
  refine K.addFinding _ _ ?_
  split
  · exact K.record _ _ h
  · exact K.record _ _ h
  · exact h

theorem Kept.attribute (K : Kept P) (r : StationRole) (d : Nat) (h : P s) : P (s.attribute r d) := by
  unfold State.attribute
  generalize (s.lacking r).take d = is
  induction is generalizing s with
  | nil => exact h
  | cons i is ih => exact ih (K.markLost _ _ h)

theorem Kept.checkSequence (K : Kept P) (e : Nat) (seq : Byte) (h : P s) :
    ∀ t, s.checkSequence e seq = some t → P t := by
  intro t ht
  have h0 : P (if 0 < (s.stream e).distance seq then s.count .streamGaps ((s.stream e).distance seq) else s) := by
    split
    · exact K.count _ _ _ h
    · exact h
  unfold State.checkSequence at ht
  dsimp only at ht
  split at ht
  · cases ht
  · cases ht
    exact K.attribute _ _ (K.streamChanged _ _ (K.stream _ _ _ (fun r _ => r.accept_inRange _ _) h0))

theorem Kept.takeJam (K : Kept P) (e : Nat) (h : P s) : P (s.takeJam e) := by
  unfold State.takeJam
  split
  · exact h
  · exact K.jam _ _ _ h
  · exact K.jam _ _ _ h
  · exact K.jam _ _ _ h
  · exact K.jam _ _ _ h
  · exact h

theorem Kept.takeClear (K : Kept P) (e : Nat) (h : P s) : P (s.takeClear e) := by
  unfold State.takeClear
  split
  · exact K.jam _ _ _ h
  · exact K.jam _ _ _ h
  · exact h

theorem Kept.qualifyExpired (K : Kept P) (e : Nat) (h : P s) : P (s.qualifyExpired e) := by
  unfold State.qualifyExpired
  split
  · exact K.notify _ _ (K.jam _ _ _ h)
  · exact K.addCause _ (K.notify _ _ (K.jam _ _ _ h))
  · exact h

theorem Kept.gapExpired (K : Kept P) (e : Nat) (h : P s) : P (s.gapExpired e) := by
  unfold State.gapExpired
  split
  · exact h
  · exact h
  · exact K.jam _ _ _ h
  · exact K.notify _ _ (K.jam _ _ _ h)
  · exact K.jam _ _ _ h
  · exact h

theorem Kept.clearExpired (K : Kept P) (e : Nat) (h : P s) : P (s.clearExpired e) := by
  unfold State.clearExpired
  split
  · exact K.notify _ _ (K.removeCause _ (K.jam _ _ _ h))
  · exact h

/-- Every report, once it has passed its sequence check. -/
theorem Kept.dispatch (K : Kept P) (e : Nat) (r : Report) (h : P s) : P (s.dispatch e r) := by
  unfold State.dispatch
  dsimp only
  generalize (s.station e).role = ro
  cases r <;> cases ro <;> dsimp only <;>
    first
      | with_reducible exact K.stray h
      | with_reducible exact K.takeJam _ h
      | with_reducible exact K.takeClear _ h
      | with_reducible exact K.inductTag _ _ h
      | with_reducible exact K.takeWeight _ _ _ h
      | with_reducible exact K.takeGrade _ _ h
      | with_reducible exact K.atGateA _ h
      | with_reducible exact K.passedA _ h
      | with_reducible exact K.takeLoaded _ h
      | with_reducible exact K.takePressure _ _ h
      | with_reducible exact K.takeExpansion _ _ h
      | with_reducible exact K.takeUnloaded _ h
      | with_reducible exact K.takeHeadFault _ h
      | with_reducible exact K.takeStampTag _ _ h
      | with_reducible exact K.takeStampDone h
      | with_reducible exact K.takeStampFault h
      | with_reducible exact K.atGateB _ h
      | with_reducible exact K.passedB _ h

/-- Every report that reaches the station map lookup. -/
theorem Kept.acceptReport (K : Kept P) (src : Node) (seq : Byte) (r : Option Report) (h : P s) :
    P (s.acceptReport src seq r) := by
  unfold State.acceptReport
  split
  · exact h
  · split
    · exact K.count _ _ _ h
    · rename_i t heq
      have h1 := K.checkSequence _ _ h t heq
      split
      · exact K.dispatch _ _ h1
      · exact K.stray h1

theorem Kept.resetStation (K : Kept P) (e : Nat) (h : P s) : P (s.resetStation e) :=
  K.removeCause _ (K.jam _ _ _ (K.stream _ _ _ (fun _ _ => ⟨Nat.zero_le _, Nat.zero_le _⟩) h))

end Sys2Proof.Machine
end

