-- ==== Sys2Proof/Laws/KeptStep.lean ====
section
/-! SUPPORT. `Kept` carried through the ring port, the role unit, management and start-up, up to every
command and every step. -/

namespace Sys2Proof.Machine

/-- A property kept by the elementary updates that serving a request, or hearing the partner, makes. -/
structure KeptServe (P : State → Prop) : Prop extends Kept P where
  line : ∀ s f, (∀ r, (f r).orders = r.orders ∧ (f r).replies = r.replies ∧ (f r).notices = r.notices ∧
    (f r).outstanding = r.outstanding ∧ (f r).proving = r.proving) → P s → P (s.modRpt f)
  proving : ∀ s f, (∀ p, p.inRange → (f p).inRange) → (∀ p, p.list.length ≤ 16 → (f p).list.length ≤ 16) →
    P s → P (s.modProving f)
  roleParts : ∀ s f, (∀ r, (f r).role = r.role ∧ (f r).expectations = r.expectations ∧
    (f r).divergence = r.divergence ∧ ((f r).beaconTimer.isSome → r.beaconTimer.isSome) ∧
    ((f r).partnerSeen.isSome → r.partnerSeen.isSome ∨ r.role = some .shadow)) → P s → P (s.modRol f)
  fit : ∀ s, P s → P (s.modRol fun r => { r with divergence := 0, unfit := false })
  pointed : ∀ s t i, i < t.size → P s → P (s.modMga fun m => { m with table := t, index := i })
  advanced : ∀ s, s.mga.index < s.mga.table.size → P s → P s.advancePointer
  zeroed : ∀ s, P s → P (s.modMga fun m => { m with counters := List.replicate 22 0 })
  dated : ∀ s d, d.inRange → P s → P (s.modMga fun m => { m with date := some d })
  marked : ∀ s o, o.length = 4 → (∀ c ∈ o, c ≤ 63) → P s → P (s.modMga fun m => { m with override := some o })
  tables : ∀ s f, (∀ t, t.shaped → (f t).shaped) → (∀ t, (f t).station = t.station) → P s → P (s.modTables f)
  station : ∀ s i e, s.conflicts i e = false → P s →
    P (s.modTables fun t => { t with station := t.station.set i e })
  takeover : ∀ s, s.isRole .shadow = true → P s → P s.takeover
  demote : ∀ s n, s.isRole .active = true → P s → P (s.demote n)
  toTransparent : ∀ s, s.tracking = true → P s → P s.toTransparent
  enterRole : ∀ s r, s.isRole .transparent = true → P s → P (s.enterRole r)
  lineRestart : ∀ s, P s → P s.lineRestart

/-- A property kept by the elementary updates of every block, and by the changes of power. -/
structure KeptExec (P : State → Prop) : Prop extends KeptServe P where
  returned : ∀ s q, P s → P (s.orderReturned q)
  lost : ∀ s k, P s → P (s.modRpt fun r => { r with outstanding := r.outstanding.eraseIdx k })
  takenOrder : ∀ s o rest t, s.orderReady = true → s.rpt.orders = o :: rest → P s →
    P (s.modRpt fun r => { r with orders := rest, outstanding := r.outstanding ++ [⟨r.emitCount, o.dst, t⟩] })
  takenReply : ∀ s r rest, s.rpt.replies = r :: rest → P s → P (s.modRpt fun p => { p with replies := rest })
  takenNotice : ∀ s k, P s → P (s.modRpt fun r => { r with notices := r.notices.eraseIdx k })
  reply : ∀ s r, s.replyRoom = true → P s → P (s.pushReply r)
  held : ∀ s a b c, (!a || b || c) = true → P s → P (s.held a b c)
  released : ∀ s c, P s → P (s.released c)
  unasserted : ∀ s f, (!s.pins.supply || s.pins.internal || s.pins.pin) = true →
    (!(f s.pins).supply || (f s.pins).internal || (f s.pins).pin) = true →
    (f s.pins).relayClosed = s.pins.relayClosed → P s → P (s.modPins f)
  endLoading : ∀ s w, P s → P (s.endLoading w)

/-- The same, kept also by what a step adds to a command: the queue's change and the timebase. -/
structure KeptAll (P : State → Prop) : Prop extends KeptExec P where
  elapse : ∀ s, P s → P s.elapse
  pending : ∀ s q, P s → P (s.setPending q)

variable {P : State → Prop} {s : State}

/-! ### The lines -/

theorem KeptServe.finishSending (K : KeptServe P) (h : P s) : P s.finishSending := by
  unfold State.finishSending
  split
  · exact h
  · exact K.line _ _ (fun _ => ⟨rfl, rfl, rfl, rfl, rfl⟩) (K.out _ _ (K.out _ _ h))

theorem KeptServe.repeatFrame (K : KeptServe P) (raw : List Byte) (h : P s) : P (s.repeatFrame raw) := by
  unfold State.repeatFrame
  split
  · dsimp only
    split
    · exact K.line _ _ (fun _ => ⟨rfl, rfl, rfl, rfl, rfl⟩) h
    · exact K.finishSending (K.line _ _ (fun _ => ⟨rfl, rfl, rfl, rfl, rfl⟩) h)
  · exact K.out _ _ h

/-! ### The role unit -/

theorem KeptServe.startPartnerSeen (K : KeptServe P) (hr : s.isRole .shadow = true) (h : P s) :
    P s.startPartnerSeen := by
  have hr' : s.rol.role = some .shadow := by simpa [State.isRole] using hr
  have := K.roleParts s (fun r => if r.role = some .shadow then { r with partnerSeen := some s.config.takeoverTime } else r)
    (by intro r; split <;> simp_all) h
  simpa [State.startPartnerSeen, State.modRol, hr'] using this

theorem KeptServe.beaconExpired (K : KeptServe P) (h : P s) : P s.beaconExpired := by
  unfold State.beaconExpired
  split
  · exact h
  · rename_i heq
    have h1 : P (s.modRpt fun r => { r with beaconDue := true }) :=
      K.line _ _ (fun _ => ⟨rfl, rfl, rfl, rfl, rfl⟩) h
    have := K.roleParts (s.modRpt fun r => { r with beaconDue := true })
      (fun r => if r.beaconTimer.isSome then { r with beaconTimer := some s.config.beaconPeriod } else r)
      (by intro r; split <;> simp_all) h1
    simpa [State.modRol, heq] using this

theorem KeptServe.recordPartner (K : KeptServe P) (r : Role) (o u : Byte) (h : P s) : P (s.recordPartner r o u) :=
  K.useFree (K.roleParts _ _ (fun _ => ⟨rfl, rfl, rfl, id, Or.inl⟩) h)

theorem KeptServe.takeBeacon (K : KeptServe P) (r o u : Byte) (h : P s) : P (s.takeBeacon r o u) := by
  unfold State.takeBeacon
  split
  · have h1 := K.recordPartner .active o u h
    dsimp only
    split
    · exact K.startPartnerSeen ‹_› h1
    · split
      · rename_i hc
        exact K.demote _ _ hc.1 h1
      · exact h1
  · have h1 := K.recordPartner .shadow o u h
    dsimp only
    split
    · exact K.startPartnerSeen ‹_› h1
    · exact h1
  · exact h

theorem KeptServe.partnerSeenExpired (K : KeptServe P) (h : P s) : P s.partnerSeenExpired := by
  unfold State.partnerSeenExpired
  split
  · rename_i hr _
    have h1 := K.roleParts s (fun r => { r with partnerSeen := none, partner := { r.partner with presence := .absent } })
      (fun _ => ⟨rfl, rfl, rfl, id, by simp⟩) h
    dsimp only
    split
    · exact K.takeover _ hr h1
    · exact h1
  · exact h

theorem KeptServe.changeRole (K : KeptServe P) (src : Node) (r : Role) (h : P s) : P (s.changeRole src r).2 := by
  unfold State.changeRole
  cases hr : s.rol.role with
  | none => exact h
  | some q =>
    cases q <;> cases r <;> dsimp only
    · exact h
    · split
      · dsimp only
        exact K.enterRole _ _ (by simp [State.isRole, hr]) h
      · exact h
    · split
      · dsimp only
        exact K.enterRole _ _ (by simp [State.isRole, hr]) h
      · exact h
    · exact K.toTransparent _ (by simp [State.tracking, State.isRole, hr]) h
    · exact h
    · exact K.demote _ _ (by simp [State.isRole, hr]) h
    · exact K.toTransparent _ (by simp [State.tracking, State.isRole, hr]) h
    · exact K.takeover _ (by simp [State.isRole, hr]) h
    · exact h

theorem KeptServe.askMove (K : KeptServe P) (o : OrderWire) (h : P s) : P (s.askMove o).2 := by
  unfold State.askMove
  split
  · split
    · exact K.moveHead _ _ h
    · exact h
  · exact h

theorem KeptServe.assignDiffers (K : KeptServe P) (o : OrderWire) (h : P s) : P (s.assignDiffers o) := by
  have h1 := K.askMove o h
  unfold State.assignDiffers
  split
  · simpa [*] using h1
  · rename_i heq
    exact K.diverge (by simpa [heq] using h1)

theorem KeptServe.assignUnexpected (K : KeptServe P) (o : OrderWire) (h : P s) : P (s.assignUnexpected o) := by
  have h1 := K.askMove o h
  unfold State.assignUnexpected
  split
  · rename_i heq
    exact K.diverge (by simpa [heq] using h1)
  · simpa [*] using h1

theorem KeptServe.removeExpectation (K : KeptServe P) (k : Nat) (h : P s) : P (s.removeExpectation k) :=
  K.forget _ _ (List.eraseIdx_sublist ..) h

theorem KeptServe.compareOrder (K : KeptServe P) (d : Node) (o : OrderWire) (h : P s) : P (s.compareOrder d o) := by
  unfold State.compareOrder
  split
  · rename_i k _
    have h1 := K.removeExpectation k h
    dsimp only
    split
    · exact h1
    · split
      · exact K.assignDiffers _ h1
      · exact K.diverge h1
  · split
    · exact K.assignUnexpected _ h
    · exact K.diverge h

theorem KeptServe.takePartnerOrder (K : KeptServe P) (d : Node) (p : List Byte) (h : P s) :
    P (s.takePartnerOrder d p) := by
  unfold State.takePartnerOrder
  split
  · split
    · exact K.diverge h
    · have h1 := K.compareOrder d ‹_› h
      dsimp only
      split
      · unfold State.testSeen
        split
        · exact K.leaveLoaded _ h1
        · exact h1
      · exact h1
  · exact h

theorem KeptServe.expectationExpired (K : KeptServe P) (k : Nat) (h : P s) : P (s.expectationExpired k) := by
  unfold State.expectationExpired
  split
  · exact h
  · exact K.expectationDropped _ (K.diverge (K.removeExpectation _ h))

/-! ### Management -/

theorem KeptServe.storeEntry (K : KeptServe P) (c : Bool) (f : Tables → Tables)
    (hp : s.mga.index < s.mga.table.size) (hf : ∀ t, t.shaped → (f t).shaped)
    (hs : ∀ t, (f t).station = t.station) (h : P s) :
    P (s.storeEntry c f).state := K.advanced _ hp (K.tables _ _ hf hs h)

theorem KeptServe.writeStation (K : KeptServe P) (i : Nat) (e : List Byte) (hp : s.mga.index < s.mga.table.size)
    (h : P s) : P (s.writeStation i e).state := by
  unfold State.writeStation
  split
  · exact h
  · split
    · exact h
    · rename_i hc
      exact K.resetStation _ (K.advanced _ hp (K.station _ _ _ (by simpa using hc) h))

theorem KeptServe.writeRecall (K : KeptServe P) (i : Nat) (e : List Byte) (hp : s.mga.index < s.mga.table.size)
    (h : P s) : P (s.writeRecall i e).state := by
  unfold State.writeRecall
  split
  · exact h
  · split
    · exact h
    · exact K.storeEntry _ _ hp (fun t ht => by simpa [Tables.shaped] using ht) (fun _ => rfl) h

theorem KeptServe.serveWrite (K : KeptServe P) (e : List Byte) (h : P s) : P (s.serveWrite e).state := by
  unfold State.serveWrite
  split
  · split
    · rename_i hp
      unfold State.writeEntry
      split
      · exact K.writeStation _ _ hp h
      · exact K.writeRecall _ _ hp h
      all_goals
        split
        · exact h
        · exact K.storeEntry _ _ hp (fun t ht => by simpa [Tables.shaped] using ht) (fun _ => rfl) h
    · exact h
  · exact h

theorem KeptServe.serveSelect (K : KeptServe P) (t i : Byte) (h : P s) : P (s.serveSelect t i).state := by
  unfold State.serveSelect
  split
  · exact h
  · split
    · exact K.pointed _ _ _ ‹_› h
    · exact h

theorem KeptServe.serveRead (K : KeptServe P) (h : P s) : P s.serveRead.state := by
  unfold State.serveRead
  split
  · exact K.advanced _ ‹_› h
  · exact h

theorem KeptServe.serveStatus (K : KeptServe P) (b : Byte) (h : P s) : P (s.serveStatus b).state := by
  unfold State.serveStatus
  split
  · exact K.useFree h
  · exact K.useFree h
  · exact K.useFree h
  · exact h

theorem KeptServe.serveTrackRead (K : KeptServe P) (b : Byte) (h : P s) : P (s.serveTrackRead b).state := by
  unfold State.serveTrackRead
  split
  · exact K.useFree h
  · exact h

theorem KeptServe.serveCounters (b : Byte) (h : P s) : P (s.serveCounters b).state := by
  unfold State.serveCounters
  dsimp only
  split <;> exact h

/-- R28: a clamped number lies in the range. -/
theorem clampTo_mem (lo hi n : Nat) (hlh : lo ≤ hi) : lo ≤ clampTo lo hi n ∧ clampTo lo hi n ≤ hi := by
  unfold clampTo
  omega

theorem KeptServe.serveSetDate (K : KeptServe P) (y m : Byte) (h : P s) : P (s.serveSetDate y m).state := by
  have hy := clampTo_mem 0 99 y.toNat (by omega)
  have hm := clampTo_mem 1 12 m.toNat (by omega)
  exact K.dated _ _ ⟨hy.2, hm.1, hm.2⟩ h

theorem KeptServe.serveSetPlantMark (K : KeptServe P) (a b c d : Byte) (h : P s) :
    P (s.serveSetPlantMark [a, b, c, d]).state := by
  refine K.marked _ _ rfl ?_ h
  intro x hx
  simp only [List.map_cons, List.map_nil, List.mem_cons, List.not_mem_nil, or_false] at hx
  rcases hx with rfl | rfl | rfl | rfl <;> exact (clampTo_mem 0 63 _ (by omega)).2

theorem KeptServe.retestHead (K : KeptServe P) (n : Nat) (h : P s) : P (s.retestHead n).2 := by
  unfold State.retestHead
  split
  · exact h
  · split
    · exact K.issueTest _ _ (K.stopStep _ h)
    · exact K.issueTest _ _ (K.stopStep _ h)
    · dsimp only
      exact K.head _ _ _ (fun _ hr => hr) h
    · exact K.issueTest _ _ (K.head _ _ _ (fun _ hr => hr) (K.stopStep _ h))
    · exact K.issueTest _ _ (K.head _ _ _ (fun _ hr => hr) (K.stopStep _ h))
    · exact h

theorem KeptServe.abortHead (K : KeptServe P) (n : Nat) (h : P s) : P (s.abortHead n).2 := by
  unfold State.abortHead
  split
  · exact h
  · split
    · exact K.startVent _ _ (K.finalInvalid _ _ (K.stopStep _ h))
    · exact K.startVent _ _ (K.finalInvalid _ _ (K.stopStep _ h))
    · exact K.finalInvalid _ _ h
    · exact h
    · exact K.enterDone _ _ (K.finalInvalid _ _ (K.stopStep _ h))
    · exact K.enterDone _ _ (K.finalInvalid _ _ (K.stopStep _ h))
    · exact K.enterDone _ _ (K.finalInvalid _ _ (K.stopStep _ h))
    · exact h

theorem KeptServe.disableHead (K : KeptServe P) (n : Nat) (h : P s) : P (s.disableHead n).2 := by
  unfold State.disableHead
  split
  · dsimp only
    exact K.head _ _ _ (fun _ hr => hr) h
  · exact h

theorem KeptServe.enableHead (K : KeptServe P) (n : Nat) (h : P s) : P (s.enableHead n).2 := by
  unfold State.enableHead
  split
  · exact K.assignLoader (K.head _ _ _ (fun _ _ => Nat.zero_le _) h)
  · exact K.assignLoader (K.head _ _ _ (fun _ _ => Nat.zero_le _) h)
  · exact h
  · exact h

theorem KeptServe.serveHead (K : KeptServe P) (a b : Byte) (h : P s) : P (s.serveHead a b).state := by
  unfold State.serveHead
  dsimp only
  split
  · exact h
  · split
    · exact h
    · split
      · exact K.retestHead _ h
      · exact K.abortHead _ h
      · exact K.disableHead _ h
      · exact K.enableHead _ h

theorem KeptServe.operatorHold (K : KeptServe P) (i : Nat) (h : P s) : P (s.operatorHold i) := by
  unfold State.operatorHold
  split
  · exact h
  · exact K.rerouteGateB _ (K.rerouteGateA _ (K.addFinding _ _ h))

theorem KeptServe.serveTrackHold (K : KeptServe P) (r : WireRef) (h : P s) : P (s.serveTrackHold r).state := by
  unfold State.serveTrackHold
  dsimp only
  split
  · exact K.operatorHold _ h
  · exact h

theorem KeptServe.haltManualOn (K : KeptServe P) (h : P s) : P s.haltManualOn.2 := by
  unfold State.haltManualOn
  split
  · dsimp only
    split
    · exact K.addCause _ h
    · exact K.send _ _ (K.addCause _ h)
  · split
    · exact K.addCause _ h
    · exact h

theorem KeptServe.haltManualOff (K : KeptServe P) (h : P s) : P s.haltManualOff.2 := by
  unfold State.haltManualOff
  split
  · dsimp only
    split
    · exact K.send _ _ (K.removeCause _ h)
    · exact K.removeCause _ h
  · split
    · exact K.removeCause _ h
    · exact h

theorem KeptServe.serveHaltManual (K : KeptServe P) (b : Byte) (h : P s) : P (s.serveHaltManual b).state := by
  unfold State.serveHaltManual
  split
  · exact K.haltManualOff h
  · exact K.haltManualOn h
  · exact h

theorem KeptServe.clearOverrun (K : KeptServe P) (h : P s) : P s.clearOverrun := by
  unfold State.clearOverrun
  split
  · exact K.removeCause _ h
  · exact h

theorem KeptServe.proveOff (K : KeptServe P) (h : P s) : P s.proveOff := by
  refine K.proving _ _ ?_ (fun _ _ => Nat.zero_le _) h
  intro p hp
  simp only [Proving.inRange] at hp ⊢
  simp
  omega

theorem KeptServe.serveProve (K : KeptServe P) (b : Byte) (h : P s) : P (s.serveProve b).state := by
  unfold State.serveProve
  split
  · split
    · exact h
    · exact K.proving s (fun _ => _) (fun _ _ => by simp [Proving.inRange, Proving.reset]) (fun _ _ => Nat.zero_le _) h
  · dsimp only
    split
    · exact K.proveOff h
    · exact h
  · split
    · dsimp only
      exact K.proving _ _ (fun _ hp => hp) (fun _ hp => hp) h
    · exact h
  · exact h

theorem KeptServe.serveSetLoop (K : KeptServe P) (b : Byte) (h : P s) : P (s.serveSetLoop b).state := by
  unfold State.serveSetLoop
  split
  · dsimp only
    exact K.line _ _ (fun _ => ⟨rfl, rfl, rfl, rfl, rfl⟩) h
  · split
    · dsimp only
      exact K.line _ _ (fun _ => ⟨rfl, rfl, rfl, rfl, rfl⟩) h
    · exact h
  · exact h

theorem KeptServe.serveSetRole (K : KeptServe P) (src : Node) (b : Byte) (h : P s) :
    P (s.serveSetRole src b).state := by
  unfold State.serveSetRole
  split
  · exact h
  · exact K.changeRole _ _ h

/-- Every request. -/
theorem KeptServe.carryOut (K : KeptServe P) (src : Node) (r : Request) (h : P s) : P (s.carryOut src r).state := by
  unfold State.carryOut
  split
  · exact K.serveStatus _ h
  · exact K.serveSelect _ _ h
  · exact K.serveRead h
  · exact K.serveWrite _ h
  · exact K.serveTrackRead _ h
  · exact KeptServe.serveCounters _ h
  · exact K.fit _ (K.zeroed _ h)
  · exact K.serveSetDate _ _ h
  · exact K.serveSetRole _ _ h
  · exact K.serveSetLoop _ h
  · exact K.serveHead _ _ h
  · exact K.serveTrackHold _ h
  · exact K.serveHaltManual _ h
  · exact K.clearOverrun h
  · exact K.serveProve _ h
  · exact K.serveSetPlantMark _ _ _ _ h
  · exact K.lineRestart _ h

theorem KeptServe.answerTo (K : KeptServe P) (src : Node) (p : List Byte) (h : P s) : P (s.answerTo src p).state := by
  unfold State.answerTo
  split
  · exact h
  · unfold State.serve
    split
    · exact h
    · split
      · exact h
      · split
        · exact h
        · split
          · exact h
          · exact K.carryOut _ _ h

/-! ### Serving leaves the reply queue as it stands -/

theorem State.enqueueOrder_replies (d : Node) (o : Order) : (s.enqueueOrder d o).rpt.replies = s.rpt.replies := by
  unfold State.enqueueOrder
  split <;> rfl

/-- No operation of the tracking blocks touches the reply queue. -/
theorem kept_replies (R : List Reply) : Kept fun t => t.rpt.replies = R where
  out := fun _ _ h => h
  free := fun _ _ h => h
  entry := fun _ _ _ h => h
  places := fun _ _ _ h => h
  gateA := fun _ _ h => h
  fcu := fun _ _ h => h
  lsc := fun _ _ h => h
  head := fun _ _ _ _ h => h
  loader := fun _ _ _ h => h
  stream := fun _ _ _ _ h => h
  jam := fun _ _ _ h => h
  count := fun _ _ _ h => h
  notice := fun _ _ _ h => h
  order := fun _ d o _ h => (State.enqueueOrder_replies d o).trans h
  forget := fun _ _ _ h => h
  expect := fun _ _ _ _ _ _ h => h
  diverged := fun _ _ _ h => h
  unfit := fun _ h => h

end Sys2Proof.Machine
end

