-- ==== Sys2Proof/Laws/KeptRing.lean ====
section
/-! SUPPORT. `KeptExec` and `KeptAll` carried up to every command and every step. -/

namespace Sys2Proof.Machine

/-! ### Serving leaves the reply queue as it stands -/

theorem State.enqueueAll_replies (es : List Expectation) (s : State) :
    (es.foldl (fun s e => s.enqueueOrder e.dst e.order) s).rpt.replies = s.rpt.replies := by
  induction es generalizing s with
  | nil => rfl
  | cons e es ih => exact (ih _).trans (State.enqueueOrder_replies _ _)

/-- R173: after the expectations have become orders, a takeover makes only updates of the tracking blocks. -/
theorem State.takeover_kept {P : State → Prop} (K : Kept P) (s : State)
    (h : P ((s.modRol fun r => { r with role := some .active, partnerSeen := none }).expectationsToOrders))
    (hp : ∀ t, P t → P t.proveOff) : P s.takeover := by
  unfold State.takeover State.restateLine State.leaveAllLoaded
  exact K.notify _ _ (hp _ (K.send _ _ (K.send _ _ (K.leaveLoaded 3 (K.leaveLoaded 2 (K.leaveLoaded 1
    (K.leaveLoaded 0 h)))))))

/-- Nothing that serves a request, and nothing of the tracking blocks, touches the reply queue: a reply's
place stays free until it joins (R129). -/
theorem keptServe_replies (R : List Reply) : KeptServe fun t => t.rpt.replies = R where
  toKept := kept_replies R
  line := fun _ _ hf h => (hf _).2.1.trans h
  proving := fun _ _ _ _ h => h
  roleParts := fun _ _ _ h => h
  fit := fun _ h => h
  pointed := fun _ _ _ _ h => h
  advanced := fun _ _ h => h
  zeroed := fun _ h => h
  dated := fun _ _ _ h => h
  marked := fun _ _ _ _ h => h
  tables := fun _ _ _ _ h => h
  station := fun _ _ _ _ h => h
  takeover := fun s _ h => State.takeover_kept (kept_replies R) s ((State.enqueueAll_replies _ _).trans h)
    (fun _ ht => ht)
  demote := by
    intro s n _ h
    have K := kept_replies R
    exact K.notify _ _ (K.serveClosing (P := fun t => t.rpt.replies = R)
      (s := ((s.modRol fun r => { r with role := some .shadow }).startPartnerSeen).withdrawOrders) h)
  toTransparent := fun _ _ h => h
  enterRole := by
    intro s r _ h
    cases r <;> exact h
  lineRestart := by
    intro s h
    have K := kept_replies R
    have hv : ∀ t : State, t.rpt.replies = R → ∀ n, (t.restartVent n).rpt.replies = R := by
      intro t ht n
      unfold State.restartVent
      split
      · split
        · exact K.sendVent _ _ ht
        · exact ht
      · exact ht
    have h1 : ((s.withdrawOrders).dropExpectations).rpt.replies = R := h
    have h2 := hv _ (hv _ (hv _ (hv _ h1 0) 1) 2) 3
    unfold State.lineRestart
    refine K.reportIq _ ?_
    unfold State.emptyHalt
    dsimp only
    split
    · exact h2
    · exact K.send _ _ h2

/-- R129: a request's serving leaves the reply queue alone. -/
theorem State.answerTo_replies (src : Node) (p : List Byte) (s : State) :
    (s.answerTo src p).state.rpt.replies = s.rpt.replies :=
  (keptServe_replies s.rpt.replies).answerTo src p rfl

variable {P : State → Prop} {s : State}

theorem KeptExec.consumeRequest (K : KeptExec P) (src : Node) (seq : Byte) (p : List Byte) (h : P s) :
    P (s.consumeRequest src seq p) := by
  unfold State.consumeRequest
  split
  · rename_i hr
    have h1 := K.toKeptServe.answerTo src p h
    have h2 : (s.answerTo src p).state.replyRoom = true := by
      simpa [State.replyRoom, State.answerTo_replies] using hr
    dsimp only
    split
    · exact K.reply _ _ h2 (K.useFree h1)
    · exact K.reply _ _ h2 h1
  · exact K.count _ _ _ h

/-! ### Reception -/

theorem Proving.check_inRange (good : Bool) (p : Proving) (h : p.inRange) : (p.check good).inRange := by
  simp only [Proving.inRange] at h
  unfold Proving.check
  split
  · exact h
  · rename_i hc
    have := h.2.2.2.2 hc
    split
    · split
      · simp only [Proving.inRange]
        simp
        omega
      · simp only [Proving.inRange]
        omega
    · simp only [Proving.inRange]
      omega
  · dsimp only
    have hp : (pushResult good p.window).length ≤ 16 := by
      simp only [pushResult, List.length_drop, List.length_append, List.length_singleton]
      omega
    split
    · simp only [Proving.inRange]
      simp
      omega
    · simp only [Proving.inRange]
      refine ⟨h.1, h.2.1, hp, h.2.2.2.1, ?_⟩
      simp_all

theorem Proving.found_inRange (k q : Nat) (p : Proving) (h : p.inRange) : (p.found k q).inRange := by
  simp only [Proving.inRange, Proving.found, List.length_drop] at h ⊢
  exact ⟨by omega, Nat.zero_le _, h.2.2⟩

theorem Proving.check_list (good : Bool) (p : Proving) : (p.check good).list = p.list := by
  unfold Proving.check
  split
  · rfl
  · split
    · split <;> rfl
    · rfl
  · dsimp only
    split <;> rfl

theorem KeptExec.proveReturned (K : KeptExec P) (seq : Byte) (p : List Byte) (h : P s) :
    P (s.proveReturned seq p) := by
  unfold State.proveReturned
  dsimp only
  split
  · exact h
  · refine K.proving _ _ (fun q hq => Proving.check_inRange _ _ (Proving.found_inRange _ _ _ hq)) ?_ ?_
    · intro q hq
      rw [Proving.check_list]
      simp only [Proving.found, List.length_drop]
      omega
    have h1 : P (if p.length = 32 then s else s.useFree) := by
      split
      · exact h
      · exact K.useFree h
    split
    · exact K.count _ _ _ (K.count _ _ _ h1)
    · exact h1

theorem KeptExec.receiveOwnOrder (K : KeptExec P) (path : RxPath) (seq : Byte) (h : P s) :
    P (s.receiveOwnOrder path seq) := by
  unfold State.receiveOwnOrder
  split
  · exact K.returned _ _ h
  · exact h

theorem KeptExec.receiveOwnProve (K : KeptExec P) (path : RxPath) (seq : Byte) (p : List Byte) (h : P s) :
    P (s.receiveOwnProve path seq p) := by
  unfold State.receiveOwnProve
  split
  · exact K.proveReturned _ _ h
  · exact h

theorem KeptExec.receiveReport (K : KeptExec P) (src : Node) (seq : Byte) (r : Option Report) (raw : List Byte)
    (h : P s) : P (s.receiveReport src seq r raw) := by
  unfold State.receiveReport
  split
  · have h1 := K.toKeptServe.repeatFrame raw h
    dsimp only
    split
    · exact K.toKept.acceptReport _ _ _ h1
    · exact h1
  · exact h

theorem KeptExec.receiveOrder (K : KeptExec P) (dst src : Node) (p raw : List Byte) (h : P s) :
    P (s.receiveOrder dst src p raw) := by
  unfold State.receiveOrder
  split
  · have h1 := K.toKeptServe.repeatFrame raw h
    dsimp only
    split
    · exact K.toKeptServe.takePartnerOrder _ _ h1
    · exact h1
  · exact h

theorem KeptExec.receiveBeacon (K : KeptExec P) (src : Node) (p raw : List Byte) (h : P s) :
    P (s.receiveBeacon src p raw) := by
  unfold State.receiveBeacon
  split
  · have h1 := K.toKeptServe.repeatFrame raw h
    dsimp only
    split
    · unfold State.takeBeaconPayload
      split
      · exact K.toKeptServe.takeBeacon _ _ _ h1
      · exact h1
    · exact h1
  · exact h

theorem KeptExec.receiveRequest (K : KeptExec P) (dst src : Node) (seq : Byte) (p raw : List Byte) (h : P s) :
    P (s.receiveRequest dst src seq p raw) := by
  unfold State.receiveRequest
  split
  · split
    · exact K.consumeRequest _ _ _ h
    · exact K.toKeptServe.repeatFrame _ h
  · exact h

theorem KeptExec.receiveOwn (K : KeptExec P) (path : RxPath) (raw : List Byte) (h : P s) :
    P (s.receiveOwn path raw) := by
  unfold State.receiveOwn
  split
  · exact K.count _ _ _ h
  · split
    · exact K.count _ _ _ h
    · split
      · exact K.receiveOwnOrder _ _ h
      · split
        · exact K.receiveOwnProve _ _ _ h
        · exact h

theorem KeptExec.receiveIntact (K : KeptExec P) (f : Frame) (raw : List Byte) (h : P s) :
    P (s.receiveIntact f raw) := by
  unfold State.receiveIntact
  split
  · exact K.receiveReport _ _ _ _ h
  · exact K.receiveOrder _ _ _ _ h
  · exact K.receiveRequest _ _ _ _ _ h
  · exact K.toKeptServe.repeatFrame _ h
  · exact K.toKeptServe.repeatFrame _ h
  · exact K.toKeptServe.repeatFrame _ h
  · exact K.receiveBeacon _ _ _ h
  · exact K.count _ _ _ (K.toKeptServe.repeatFrame _ h)

theorem KeptExec.receive (K : KeptExec P) (path : RxPath) (raw : List Byte) (h : P s) : P (s.receive path raw) := by
  unfold State.receive
  split
  · split
    · exact K.receiveOwn _ _ h
    · split
      · unfold State.receiveOther
        split
        · exact K.count _ _ _ (K.toKeptServe.repeatFrame _ h)
        · split
          · exact K.count _ _ _ (K.toKeptServe.repeatFrame _ h)
          · exact K.receiveIntact _ _ h
      · exact h
  · exact h

theorem KeptExec.completeSending (K : KeptExec P) (h : P s) : P s.completeSending := by
  unfold State.completeSending
  split
  · exact K.receive _ _ (K.toKeptServe.finishSending h)
  · exact K.toKeptServe.finishSending h

/-! ### The insert arbiter -/

theorem KeptExec.launch (K : KeptExec P) (dst : Node) (k : Byte) (p : List Byte) (h : P s) : P (s.launch dst k p) := by
  unfold State.launch
  exact K.line _ _ (fun _ => ⟨rfl, rfl, rfl, rfl, rfl⟩) h

theorem Proving.taken_inRange (seq : Byte) (t : Nat) (p : Proving) (h : p.inRange) : (p.taken seq t).inRange := by
  simp only [Proving.inRange, Proving.taken] at h ⊢
  refine ⟨?_, ?_, h.2.2.1, h.2.2.2.1, h.2.2.2.2⟩
  · by_cases hf : 16 ≤ p.list.length <;> simp [hf] <;> omega
  · by_cases hf : 16 ≤ p.list.length <;> simp [hf] <;> omega

theorem Proving.taken_list (seq : Byte) (t : Nat) (p : Proving) (h : p.list.length ≤ 16) :
    (p.taken seq t).list.length ≤ 16 := by
  by_cases hf : 16 ≤ p.list.length <;> simp [Proving.taken, hf] <;> omega

theorem KeptExec.arbitrate (K : KeptExec P) (h : P s) : P s.arbitrate := by
  unfold State.arbitrate
  split
  · rename_i o rest heq
    split at heq
    · exact K.launch _ _ _ (K.takenOrder _ _ _ _ ‹_› heq h)
    · simp at heq
  · rename_i heq
    exact K.launch _ _ _ (K.takenReply _ _ _ heq h)
  · split
    · exact K.launch _ _ _ (K.line _ _ (fun _ => ⟨rfl, rfl, rfl, rfl, rfl⟩) h)
    · split
      · split
        · exact K.serveClosing (K.launch _ _ _ (K.takenNotice _ _ h))
        · exact h
      · split
        · exact K.launch _ _ _ (K.proving _ _ (Proving.taken_inRange _ _) (Proving.taken_list _ _) h)
        · exact h

theorem KeptExec.gap (K : KeptExec P) (h : P s) : P s.gap := by
  unfold State.gap
  split
  · exact K.arbitrate (K.completeSending h)
  · exact h

/-! ### Timers and resets -/

theorem KeptExec.ringReturnExpired (K : KeptExec P) (k : Nat) (h : P s) : P (s.ringReturnExpired k) := by
  unfold State.ringReturnExpired
  split
  · exact h
  · exact K.notify _ _ (K.count _ _ _ (K.lost _ _ h))

theorem KeptExec.proveIntervalExpired (K : KeptExec P) (h : P s) : P s.proveIntervalExpired := by
  unfold State.proveIntervalExpired
  split
  · exact h
  · exact K.proving _ _ (fun _ hp => hp) (fun _ hp => hp) h

theorem KeptExec.releaseReset (K : KeptExec P) (r : ResetSource) (h : P s) : P (s.releaseReset r) := by
  unfold State.releaseReset
  split
  · split
    · split
      · rename_i hi hc
        refine K.unasserted _ _ (by simp [hi]) ?_ rfl h
        dsimp only
        revert hc
        cases s.pins.pin <;> cases s.pins.supply <;> simp
      · exact K.released _ _ h
    · exact h
  · split
    · split
      · rename_i hi hc
        refine K.unasserted _ _ (by simp [hi]) ?_ rfl h
        dsimp only
        revert hc
        cases s.pins.internal <;> cases s.pins.supply <;> simp
      · exact K.released _ _ h
    · exact h

/-! ### Every command, every step -/

/-- A command's next state is its effect on the state with an empty `out`. -/
theorem KeptExec.taken (K : KeptExec P) {f : State → State} {t : State} (hf : ∀ u, P u → P (f u))
    (hs : s.taken f = .next t) (h : P s) : P t := by
  cases hs
  exact hf _ (K.out _ _ h)

/-- A property that the elementary updates keep is kept by every command. -/
theorem KeptExec.exec (K : KeptExec P) (c : Instr) {t : State} (hs : exec c s = .next t) (h : P s) : P t := by
  cases c with
  | powerOnReset => exact K.taken (fun u hu => K.held _ _ _ _ rfl hu) hs h
  | pinReset => exact K.taken (fun u hu => K.held _ _ _ _ (by simp) hu) hs h
  | supplyLoss => exact K.taken (fun u hu => K.held _ _ _ _ rfl hu) hs h
  | resetRelease r => exact K.taken (fun u hu => K.releaseReset r hu) hs h
  | endOfLoading w => exact K.taken (fun u hu => K.endLoading _ w hu) hs h
  | frameReceive p b => exact K.taken (fun u hu => K.receive p b hu) hs h
  | requestInLoading d src q p => exact K.taken (fun u hu => K.receiveRequest d src q p _ hu) hs h
  | orderReturn p q => exact K.taken (fun u hu => K.receiveOwnOrder p q hu) hs h
  | proveReturn p q b => exact K.taken (fun u hu => K.receiveOwnProve p q b hu) hs h
  | transmitGap => exact K.taken (fun u hu => K.gap hu) hs h
  | ringReturnTimerExpiry k => exact K.taken (fun u hu => K.ringReturnExpired k hu) hs h
  | proveIntervalExpiry => exact K.taken (fun u hu => K.proveIntervalExpired hu) hs h
  | beaconTimerExpiry => exact K.taken (fun u hu => K.toKeptServe.beaconExpired hu) hs h
  | partnerBeacon => exact K.taken (fun u hu => K.receiveBeacon _ _ _ hu) hs h
  | partnerSeenTimerExpiry => exact K.taken (fun u hu => K.toKeptServe.partnerSeenExpired hu) hs h
  | partnerOrder => exact K.taken (fun u hu => K.receiveOrder _ _ _ _ hu) hs h
  | expectationTimerExpiry k => exact K.taken (fun u hu => K.toKeptServe.expectationExpired k hu) hs h
  | loadTimerExpiry => exact K.taken (fun u hu => K.toKept.loadExpired hu) hs h
  | rampTimerExpiry n => exact K.taken (fun u hu => K.toKept.rampExpired _ hu) hs h
  | holdTimerExpiry n => exact K.taken (fun u hu => K.toKept.holdExpired _ hu) hs h
  | ventTimerExpiry n => exact K.taken (fun u hu => K.toKept.ventExpired _ hu) hs h
  | settleTimerExpiry n => exact K.taken (fun u hu => K.toKept.settleExpired _ hu) hs h
  | measureTimerExpiry n => exact K.taken (fun u hu => K.toKept.measureExpired _ hu) hs h
  | jamQualifyExpiry e => exact K.taken (fun u hu => K.toKept.qualifyExpired _ hu) hs h
  | jamGapExpiry e => exact K.taken (fun u hu => K.toKept.gapExpired _ hu) hs h
  | clearQualifyExpiry e => exact K.taken (fun u hu => K.toKept.clearExpired _ hu) hs h
  | inductionTag | weight | grade | atGate | passed | loaded | pressure | expansion | unloaded | headFault
  | stampTag | stampDone | stampFault | jam | clear =>
    exact K.taken (fun u hu => K.receiveReport _ _ _ _ hu) hs h
  | status | select | read | write | trackRead | counters | clearCounters | setDate | setRole | setLoop
  | retest | abort | disable | enable | trackHold | haltManualOn | haltManualOff | clearOverrun | proveStart
  | proveStop | proveInsert | setPlantMark | restart =>
    exact K.taken (fun u hu => K.receiveRequest _ _ _ _ _ hu) hs h

/-- A property that the elementary updates keep is kept by a millisecond of the timebase. -/
theorem KeptAll.tick (K : KeptAll P) (h : P s) : P s.tick :=
  K.pending _ _ (K.elapse _ (K.toKeptExec.completeSending (K.out _ _ h)))

/-- A property that the elementary updates keep is kept by every step. -/
theorem KeptAll.step (K : KeptAll P) {t : State} (hs : step s = .next t) (h : P s) : P t := by
  unfold Machine.step at hs
  split at hs
  · cases hs
    exact K.tick h
  · exact K.toKeptExec.exec _ hs (K.pending _ _ h)

end Sys2Proof.Machine
end

