-- ==== Sys2Proof/Laws/Ops.lean ====
section
/-! SUPPORT. What the shared operations can do, said once each: the lines, counters and notices, orders,
the delivery of a report, the service of a request. -/

namespace Sys2Proof.Machine

variable (s : State)

/-! ### Room in the queues -/

theorem State.noticeRoom_iff : s.noticeRoom = true ↔ s.rpt.notices.length < 24 := decide_eq_true_iff
theorem State.replyRoom_iff : s.replyRoom = true ↔ s.rpt.replies.length < 4 := decide_eq_true_iff

theorem State.orderReady_iff :
    s.orderReady = true ↔ s.isRole .active = true ∧ s.rpt.outstanding.length < 16 := by
  unfold State.orderReady
  rw [Bool.and_eq_true]
  exact and_congr_right fun _ => decide_eq_true_iff

theorem State.room_iff (q : Queue) : s.room q = true ↔ s.occupied q + s.reserved q < q.capacity :=
  decide_eq_true_iff

theorem State.isRole_iff (r : Role) : s.isRole r = true ↔ s.rol.role = some r := by
  simp [State.isRole]

theorem State.tracking_iff :
    s.tracking = true ↔ s.rol.role = some .active ∨ s.rol.role = some .shadow := by
  simp [State.tracking, State.isRole]

/-! ### The lines: only `out`, the frame under way and the repeat buffer change -/

/-- The part's lines given new contents. -/
def State.setLines (o : List Emission) (e : Option Emission) (b : List (List Byte)) (s : State) : State :=
  (s.modRpt fun r => { r with sending := e, repeatBuf := b }).setOut o

theorem State.finishSending_lines : ∃ o e b, s.finishSending = s.setLines o e b := by
  unfold State.finishSending
  split
  · exact ⟨s.out, s.rpt.sending, s.rpt.repeatBuf, rfl⟩
  · exact ⟨_, none, [], rfl⟩

theorem State.repeatFrame_lines (raw : List Byte) : ∃ o e b, s.repeatFrame raw = s.setLines o e b := by
  unfold State.repeatFrame
  split
  · dsimp only
    split
    · exact ⟨s.out, s.rpt.sending, s.rpt.repeatBuf ++ [raw], rfl⟩
    · obtain ⟨o, e, b, h⟩ := (s.modRpt fun r => { r with repeatBuf := r.repeatBuf ++ [raw] }).finishSending_lines
      exact ⟨o, e, b, h⟩
  · exact ⟨_, s.rpt.sending, s.rpt.repeatBuf, rfl⟩

/-- A part that is sending nothing puts a repeated frame straight on the ring. -/
theorem State.repeatFrame_idle (raw : List Byte) (h : s.rpt.sending = none) :
    s.repeatFrame raw = s.setOut (s.out ++ [.ring raw]) := by
  unfold State.repeatFrame
  rw [h]
  rfl

section
variable (raw : List Byte)

@[simp] theorem State.repeatFrame_pins : (s.repeatFrame raw).pins = s.pins := by
  obtain ⟨o, e, b, h⟩ := s.repeatFrame_lines raw; rw [h]; rfl
@[simp] theorem State.repeatFrame_smn : (s.repeatFrame raw).smn = s.smn := by
  obtain ⟨o, e, b, h⟩ := s.repeatFrame_lines raw; rw [h]; rfl
@[simp] theorem State.repeatFrame_lsc : (s.repeatFrame raw).lsc = s.lsc := by
  obtain ⟨o, e, b, h⟩ := s.repeatFrame_lines raw; rw [h]; rfl
@[simp] theorem State.repeatFrame_trk : (s.repeatFrame raw).trk = s.trk := by
  obtain ⟨o, e, b, h⟩ := s.repeatFrame_lines raw; rw [h]; rfl
@[simp] theorem State.repeatFrame_scr : (s.repeatFrame raw).scr = s.scr := by
  obtain ⟨o, e, b, h⟩ := s.repeatFrame_lines raw; rw [h]; rfl
@[simp] theorem State.repeatFrame_tbc : (s.repeatFrame raw).tbc = s.tbc := by
  obtain ⟨o, e, b, h⟩ := s.repeatFrame_lines raw; rw [h]; rfl
@[simp] theorem State.repeatFrame_fcu : (s.repeatFrame raw).fcu = s.fcu := by
  obtain ⟨o, e, b, h⟩ := s.repeatFrame_lines raw; rw [h]; rfl
@[simp] theorem State.repeatFrame_rol : (s.repeatFrame raw).rol = s.rol := by
  obtain ⟨o, e, b, h⟩ := s.repeatFrame_lines raw; rw [h]; rfl
@[simp] theorem State.repeatFrame_mga : (s.repeatFrame raw).mga = s.mga := by
  obtain ⟨o, e, b, h⟩ := s.repeatFrame_lines raw; rw [h]; rfl
@[simp] theorem State.repeatFrame_cfl : (s.repeatFrame raw).cfl = s.cfl := by
  obtain ⟨o, e, b, h⟩ := s.repeatFrame_lines raw; rw [h]; rfl
@[simp] theorem State.repeatFrame_tables : (s.repeatFrame raw).tables = s.tables := by
  obtain ⟨o, e, b, h⟩ := s.repeatFrame_lines raw; rw [h]; rfl
@[simp] theorem State.repeatFrame_free : (s.repeatFrame raw).free = s.free := by
  obtain ⟨o, e, b, h⟩ := s.repeatFrame_lines raw; rw [h]; rfl
@[simp] theorem State.repeatFrame_pending : (s.repeatFrame raw).pending = s.pending := by
  obtain ⟨o, e, b, h⟩ := s.repeatFrame_lines raw; rw [h]; rfl
@[simp] theorem State.repeatFrame_orders : (s.repeatFrame raw).rpt.orders = s.rpt.orders := by
  obtain ⟨o, e, b, h⟩ := s.repeatFrame_lines raw; rw [h]; rfl
@[simp] theorem State.repeatFrame_replies : (s.repeatFrame raw).rpt.replies = s.rpt.replies := by
  obtain ⟨o, e, b, h⟩ := s.repeatFrame_lines raw; rw [h]; rfl
@[simp] theorem State.repeatFrame_notices : (s.repeatFrame raw).rpt.notices = s.rpt.notices := by
  obtain ⟨o, e, b, h⟩ := s.repeatFrame_lines raw; rw [h]; rfl
@[simp] theorem State.repeatFrame_outstanding : (s.repeatFrame raw).rpt.outstanding = s.rpt.outstanding := by
  obtain ⟨o, e, b, h⟩ := s.repeatFrame_lines raw; rw [h]; rfl
@[simp] theorem State.repeatFrame_loop : (s.repeatFrame raw).rpt.loop = s.rpt.loop := by
  obtain ⟨o, e, b, h⟩ := s.repeatFrame_lines raw; rw [h]; rfl
@[simp] theorem State.repeatFrame_proving : (s.repeatFrame raw).rpt.proving = s.rpt.proving := by
  obtain ⟨o, e, b, h⟩ := s.repeatFrame_lines raw; rw [h]; rfl
end

/-! ### The frame under way is finished -/

/-- What the return of a frame of the part's own can change. -/
def State.returned (os : List Outstanding) (p : Proving) (c : List Nat) (f : Nat) (s : State) : State :=
  { s with
    rpt := { s.rpt with outstanding := os, proving := p }, mga := { s.mga with counters := c }, free := f }

/-- R128, R130: a frame of the part's own that is received changes the outstanding orders, the proving state,
the counters and the free values at most. -/
theorem State.receiveOwn_returned (path : RxPath) (raw : List Byte) :
    ∃ os p c f, s.receiveOwn path raw = s.returned os p c f := by
  have same : ∃ os p c f, s = s.returned os p c f :=
    ⟨s.rpt.outstanding, s.rpt.proving, s.mga.counters, s.free, rfl⟩
  unfold State.receiveOwn
  split
  · exact ⟨s.rpt.outstanding, s.rpt.proving, _, s.free, rfl⟩
  split
  · exact ⟨s.rpt.outstanding, s.rpt.proving, _, s.free, rfl⟩
  split
  · unfold State.receiveOwnOrder
    split
    · exact ⟨_, s.rpt.proving, s.mga.counters, s.free, rfl⟩
    · exact same
  split
  · unfold State.receiveOwnProve
    split
    · unfold State.proveReturned
      dsimp only
      split
      · exact same
      · split <;> split <;> exact ⟨s.rpt.outstanding, _, _, _, rfl⟩
    · exact same
  · exact same

/-- R131, R141: with nothing under way nothing happens. -/
theorem State.completeSending_none (h : s.rpt.sending = none) : s.completeSending = s := by
  simp [State.completeSending, State.finishSending, h]

/-- R131: a frame of the part's own goes out on the ring, with the held frames behind it. -/
theorem State.completeSending_ring (own : List Byte) (h : s.rpt.sending = some (.ring own)) :
    s.completeSending = s.setLines (s.out ++ .ring own :: s.rpt.repeatBuf.map .ring) none [] := by
  simp [State.completeSending, State.finishSending, State.emitRing, State.emit, h, State.setLines]
  rfl

/-- R131, R141: all that finishing can do, whatever was under way. -/
theorem State.completeSending_touches :
    ∃ o e b os p c f, s.completeSending = (s.setLines o e b).returned os p c f := by
  obtain ⟨o, e, b, h⟩ := s.finishSending_lines
  have same : ∃ os p c f, s.setLines o e b = (s.setLines o e b).returned os p c f :=
    ⟨s.rpt.outstanding, s.rpt.proving, s.mga.counters, s.free, rfl⟩
  refine ⟨o, e, b, ?_⟩
  unfold State.completeSending
  rw [h]
  split
  · unfold State.receive
    split
    · split
      · exact State.receiveOwn_returned _ _ _
      · exact same
    · exact same
  · exact same

/-! ### Counters and notices -/

/-- R187: a count raises its counter, saturating. -/
theorem State.counter_count (c : Counter) (n : Nat) (h : c.index < s.mga.counters.length) :
    (s.count c n).counter c = saturate (s.counter c) n := by
  simp [State.counter, State.count, h]

/-- R187: a count leaves every other counter. -/
theorem State.counter_count_ne (c d : Counter) (n : Nat) (h : c.index ≠ d.index) :
    (s.count c n).counter d = s.counter d := by
  simp [State.counter, State.count, h]

theorem State.notify_room (k : EventKind) (a : Nat) (h : s.noticeRoom = true) :
    s.notify k a = s.pushNotice (.event s.config.recorder k a) := by
  simp [State.notify, h]

theorem State.notify_full (k : EventKind) (a : Nat) (h : s.noticeRoom = false) :
    s.notify k a = s.count .eventsDropped 1 := by
  simp [State.notify, h]

/-! ### Orders -/

/-- R132: in ACTIVE role an order with a destination joins the order queue, if it has room. -/
theorem State.send_active (d : Node) (o : Order) (hr : s.isRole .active = true) (hq : s.rpt.orders.length < 24) :
    s.send (some d) o = s.modRpt fun r => { r with orders := r.orders ++ [⟨d, o⟩] } := by
  simp [State.send, State.tracking, hr, State.enqueueOrder, orderCapacity, hq]

/-- R33: without a destination an order is dropped and counted. -/
theorem State.send_nowhere (o : Order) (h : s.tracking = true) :
    s.send none o = s.count .ordersDropped 1 := by
  simp [State.send, h]

/-- R163: in TRANSPARENT role no order is built. -/
theorem State.send_idle (d : Option Node) (o : Order) (h : s.tracking = false) : s.send d o = s := by
  simp [State.send, h]

/-! ### The delivery of a report -/

/-- A report that reaches its block leads to what the block does with it. -/
theorem State.report_hears {src : Node} {seq : Byte} {r : Report} {e : Nat} {s u : State}
    (h : s.hears src seq r e u) : s.report src seq r = .next (u.dispatch e r) := by
  unfold State.hears State.delivered at h
  unfold State.report State.taken State.event State.receiveReport
  dsimp only at h
  split at h
  · rename_i hc
    simp only [Bool.and_eq_true, Bool.not_eq_true'] at hc
    obtain ⟨⟨h1, h2⟩, h3⟩ := hc
    split at h
    · cases h
    · rename_i e' he
      rw [Option.map_eq_some_iff] at h
      obtain ⟨u', hu, hp⟩ := h
      cases hp
      have hs : (State.repeatFrame (reportRaw src seq r) (s.setOut [])).stationOf src = some e := by
        simpa [State.stationOf] using he
      have ht : (State.repeatFrame (reportRaw src seq r) (s.setOut [])).tracking = true := by
        simpa [State.tracking, State.isRole] using h3
      have hl : s.cfl.loading = false := h2
      simp [h1, ht, hl, State.acceptReport, hs, hu]
  · cases h

/-- R147, R148: a frame in order from a SYNCED stream changes the stream record alone. -/
theorem State.checkSequence_inOrder (e : Nat) (seq : Byte) (hx : (s.stream e).expected = some seq)
    (hst : (s.stream e).state = .synced) :
    s.checkSequence e seq = some (s.modStream e (StreamRecord.accept seq false)) := by
  have hd : (s.stream e).distance seq = 0 := by simp [StreamRecord.distance, hx]
  have hlen : e < s.smn.streams.length := by
    apply Classical.byContradiction
    intro hc
    have : s.smn.streams[e]? = none := List.getElem?_eq_none (by omega)
    simp [State.stream, this, StreamRecord.reset] at hst
  have hafter : ((s.modStream e (StreamRecord.accept seq false)).stream e).state = .synced := by
    have : (s.smn.streams[e]?).getD StreamRecord.reset = s.stream e := by
      simp [State.stream]
    simp [State.stream, State.modStream, hlen, StreamRecord.accept, gradeStream]
    simp [State.stream, hlen] at hst
    simp [hst]
  simp [State.checkSequence, hd, State.streamChanged, hafter, hst, State.attribute]

/-- A report in order from a SYNCED stream reaches its block in the state `heard`. -/
theorem State.hears_inOrder {src : Node} {seq : Byte} {r : Report} {e : Nat} {s : State}
    (hm : s.maps src e) (hx : (s.stream e).expected = some seq) (hst : (s.stream e).state = .synced) :
    s.hears src seq r e (s.heard e seq (reportRaw src seq r)) := by
  obtain ⟨h1, h2, h3, h4, h5⟩ := hm
  have hown : (s.setOut []).ownNode = s.ownNode := rfl
  have hon : (s.setOut []).onRing = true := h1
  have htr : (s.setOut []).tracking = true := h3
  have hso : (s.setOut []).stationOf src = some e := h5
  have hcs : ((s.setOut []).repeatFrame (reportRaw src seq r)).checkSequence e seq =
      some (((s.setOut []).repeatFrame (reportRaw src seq r)).modStream e (StreamRecord.accept seq false)) := by
    apply State.checkSequence_inOrder
    · simpa [State.stream] using hx
    · simpa [State.stream] using hst
  simp [State.hears, State.delivered, State.seesForeign, hon, hown, h4, h2, htr, hso, hcs, State.heard]

/-! ### The service of a request -/

theorem Request.kindKnown (r : Request) : requestKindKnown r.kindCode = true := by
  cases r <;> rfl

theorem Request.parse (r : Request) : parseRequest r.kindCode r.body = some r := by
  cases r <;> rfl

/-- R178: a request of the part's own node, from a source that may ask for its kind, is carried out, and its
answer joins the reply queue. -/
theorem State.request_hears {src : Node} {seq : Byte} {r : Request} {s : State} (h : s.hearsRequest src)
    (hm : requestKindManager r.kindCode = true → src = s.config.manager) :
    s.request src seq r =
      .next (((s.setOut []).carryOut src r).state.answered src r.kindCode seq
        ((s.setOut []).carryOut src r).code ((s.setOut []).carryOut src r).data) := by
  obtain ⟨h1, h2, h3, h4⟩ := h
  have hown : (s.setOut []).ownNode = s.ownNode := rfl
  have hon : (s.setOut []).onRing = true := h1
  have hrr : (s.setOut []).replyRoom = true := h4
  have hl : (s.setOut []).cfl.loading = false := h2
  have hsrc : (requestKindManager r.kindCode && src != (s.setOut []).config.manager) = false := by
    cases hk : requestKindManager r.kindCode
    · rfl
    · rw [hm hk]; simp [State.config]
  have hf : (s.setOut []).requestForPart s.ownNode = true := by
    simp [State.requestForPart, h2, hown]
  unfold State.request State.taken State.event State.receiveRequest State.consumeRequest State.answerTo State.serve
  simp [State.seesForeign, hon, hown, h3, hf, hrr, h2, Request.payload, Request.kindKnown, hsrc, Request.parse,
    echoedKind, State.answered]

end Sys2Proof.Machine
end

