-- ==== Sys2Proof/Tests/Slice0.lean ====
section
/-! SUPPORT. The model's own tests: the well-formedness smoke tests, the spec's worked cases, each one step
on a small state, and for each statement with premises a witness that states and operands meet them. -/

namespace Sys2Proof.Tests

open Sys2Proof Sys2Proof.Machine

/-! ## States -/

/-- A valid station entry. -/
def station (node : Node) (role : StationRole) (head : Nat) (jam : JamMode) : StationEntry :=
  { valid := true, node := node, role := role, head := head, jam := jam }

/-- The eleven position-bearing stations, the gate A station at entry 3 with an AUTO jam sensor. -/
def stations : List StationEntry :=
  [station 10 .induction 0 .notify, station 11 .weigh 0 .off, station 12 .inspect 0 .off,
    station 9 .gateA 0 .auto, station 14 .loader 0 .off, station 20 .head 0 .off, station 21 .head 1 .off,
    station 22 .head 2 .off, station 23 .head 3 .off, station 30 .stamp 0 .off, station 31 .gateB 0 .off,
    StationEntry.reset, StationEntry.reset, StationEntry.reset, StationEntry.reset, StationEntry.reset]

/-- A part past LOADING in a role, with stations, a date and the default configuration. -/
def part (r : Role) : State := { State.reset with
  cfl := { State.reset.cfl with loading := false, defaulted := false }
  tables := { State.reset.tables with station := stations }
  mga := { State.reset.mga with date := some ⟨31, 5⟩ }
  rol := { State.reset.rol with role := some r } }

/-- A part in ACTIVE role. -/
def act : State := part .active

/-- A part in SHADOW role, its partner-seen timer running. -/
def sha : State := { part .shadow with rol := { (part .shadow).rol with partnerSeen := some 900 } }

/-- A part in TRANSPARENT role. -/
def tra : State := part .transparent

/-- A part in LOADING, right after reset. -/
def res : State := State.reset

/-- The stream of entry `e` in a state, with no expected number. -/
def stream (e : Nat) (st : StreamState) (s : State) : State :=
  s.modStream e fun r => { r with state := st }

/-- Track entry `i`, of generation 0, put at a place with a record. -/
def put (i : Nat) (p : Location) (r : TrackRecord) (s : State) : State :=
  { s with trk := { s.trk with table := s.trk.table.set i ⟨0, p, r⟩ } }

/-- The class limits of the worked cases. -/
def limits : ClassLimits :=
  { material := .steel, interval := 60, life := 40, pt := 250, margin := 100, tolerance := 5, hold := 30,
    permLimit := 100, elasticLimit := 0, tareLoss := 50, tareGain := 200, maxRetests := 1,
    ventThreshold := 1, settle := 5, strike := 2 }

/-- The identity of the worked cases. -/
def someone : Identity :=
  { serial := 7, owner := 5, cls := 3, lastYear := 26, lastMonth := 6, tare := 1420, mfgYear := 20,
    quality := .good }

/-- A steel cylinder of the worked cases. -/
def steel : TrackRecord := { TrackRecord.fresh with identity := some someone, classSnap := some limits }

/-- The tag of that cylinder. -/
def tag : TagRead := .good ⟨7, 5, 3, 26, 6, 1420, 20⟩

/-- Cylinders `is` in IQ. -/
def queued (is : List Nat) (r : TrackRecord) (s : State) : State :=
  is.foldl (fun s i => put i .intake r s) { s with trk := { s.trk with iq := is } }

/-- Head `n` in a state with cylinder 0, a steel one. -/
def headAt (n : Nat) (st : HeadState) (f : HeadRecord → HeadRecord) (s : State) : State :=
  (put 0 (.head n) { steel with hydro := some Hydro.fresh } s).modHead n fun _ =>
    f { HeadRecord.reset with state := st, cylinder := some 0 }

/-- Gate A with a pending ROUTE for cylinder 0 and arrival number 4. -/
def gateAPending (route : RouteA) (s : State) : State :=
  put 0 .gateA { steel with reservation := match route with
      | .bank => some .fq
      | .bypass => some .xq
      | .returnBack => none }
    { s with
      trk := { s.trk with gateA := some 0 }
      scr := { gate := { state := .pending, item := some (.entry 0), stored := some 4, ordered := some route,
                         last := none } } }

/-- Gate A waiting for a place, its arrival number 4. -/
def gateADeferred (s : State) : State := { queued [0] { steel with atGate := true } s with
  scr := { gate := { state := .deferred, item := some (.entry 0), stored := some 4, ordered := some .bank,
                     last := none } } }

/-- Gate B with a pending ROUTE for an item at the head of GQ and arrival number 4. -/
def gateBPending (it : Item) (route : RouteB) (s : State) : State :=
  put 0 .gateB steel { s with
    trk := { s.trk with gq := [it] }
    fcu := { s.fcu with gate := { state := .pending, item := some it, stored := some 4, ordered := some route,
                                  last := none } } }

/-- The stamp slot with a content and a stage, cylinder 0 being the entry. -/
def slotAt (c : SlotContent) (st : Stage) (s : State) : State :=
  put 0 .stamp { steel with stampStatus := .sent, reservation := if st = .sent then some .gq else none }
    { s with fcu := { s.fcu with slot := { content := c, stage := st, image := some ⟨[1], 1, 2⟩ } } }

/-- The next state after a command. -/
def after (c : Instr) (s : State) : State :=
  match exec c s with
  | .next t => t
  | _ => s

/-- The commands run in order. -/
def run (cs : List Instr) (s : State) : State := cs.foldl (fun s c => after c s) s

/-- A report is heard as one of entry `e`, in a state with a property. -/
def heard (src : Node) (seq : Byte) (r : Report) (e : Nat) (p : State → Bool) (s : State) : Bool :=
  match s.delivered src seq (reportRaw src seq r) with
  | some (e', u) => e' == e && p u
  | none => false

/-- What `heard` says: the premise `State.hears` is met, in a state with the property. -/
theorem heard_iff (src : Node) (seq : Byte) (r : Report) (e : Nat) (p : State → Bool) (s : State) :
    heard src seq r e p s = true ↔ ∃ u, s.hears src seq r e u ∧ p u = true := by
  simp only [heard, State.hears]
  split
  · next e' u h =>
    constructor
    · intro hp
      simp only [Bool.and_eq_true, beq_iff_eq] at hp
      exact ⟨u, by rw [hp.1] at h; exact h, hp.2⟩
    · rintro ⟨v, hv, hp⟩
      rw [h] at hv
      simp only [Option.some.injEq, Prod.mk.injEq] at hv
      simp [hv.1, hv.2, hp]
  · next h =>
    constructor
    · intro hf
      cases hf
    · rintro ⟨v, hv, _⟩
      rw [h] at hv
      cases hv

/-- A head of the part. -/
def headIs (n : Nat) (st : HeadState) (u : State) : Bool := (u.head n).state == st

/-! ## Well-formedness -/

theorem test_wellFormed_endOfLoading :
    (Instr.endOfLoading (List.replicate 31 0)).wellFormed = false ∧
      (Instr.endOfLoading (List.replicate 32 0)).wellFormed = true := by decide

theorem test_wellFormed_frameReceive : (Instr.frameReceive .ring []).wellFormed = false := by decide

theorem test_wellFormed_requestInLoading :
    (Instr.requestInLoading 1 2 0 (List.replicate 49 0)).wellFormed = false ∧
      (Instr.requestInLoading 1 2 0 (List.replicate 48 0)).wellFormed = true := by decide

theorem test_wellFormed_proveReturn :
    (Instr.proveReturn .ring 0 (List.replicate 49 0)).wellFormed = false := by decide

theorem test_wellFormed_partnerOrder :
    (Instr.partnerOrder 1 0 (List.replicate 49 0)).wellFormed = false := by decide

theorem test_wellFormed_write : (Instr.write 1 0 (List.replicate 48 0)).wellFormed = false ∧
    (Instr.write 1 0 (List.replicate 47 0)).wellFormed = true := by decide

theorem test_wellFormed_ringReturnTimerExpiry : (Instr.ringReturnTimerExpiry 16).wellFormed = false := by
  decide

theorem test_wellFormed_expectationTimerExpiry :
    (Instr.expectationTimerExpiry 16).wellFormed = false := by decide

/-- The table gives no row bits, so no word spells a command. -/
theorem test_decodeTableWord_none : decodeTableWord 16 0x9680 = none := by decide

/-! ## Worked cases of the spec -/

/-- "Worked decode" of chapter 10, word 0, the nodes and the clamped values. -/
theorem test_endOfLoading_worked_decode :
    let c := decodeConfiguration ([0x9680, 0x2846, 0, 10, 50, 50, 60, 120, 60, 30, 0x1E18] ++
      List.replicate 21 0)
    c.startRole = .active ∧ c.autoTakeover = true ∧ c.unknownOwner = .note ∧ c.own = 40 ∧ c.partner = 62 ∧
      c.beaconPeriod = 20 ∧ c.takeoverTime = 200 ∧ c.iqHigh = 24 ∧ c.iqLow = 23 := by decide +kernel

theorem test_endOfLoading_takeover_raised :
    (decodeConfiguration ([0x9680, 0x2846, 0, 800, 1000] ++ List.replicate 27 0)).takeoverTime = 2400 := by
  decide +kernel

/-- The "Worked lookup" of chapter 3: entry 0 is the match for 0x1234, entry 2 for 0x3401. -/
def lookupPart : State := { act with
  tables := { act.tables with
    owner := [⟨true, 0x1200, 0xFF00, .active, 0, 1⟩, ⟨true, 0x1234, 0xFFFF, .suspended, 2, 2⟩,
      ⟨true, 0, 0, .active, 6, 3⟩] ++ act.tables.owner.drop 3
    cls := act.tables.cls.set 3 ⟨true, limits⟩ } }

theorem test_inductionTag_owner_lookup :
    ((after (.inductionTag 10 0 (.good ⟨7, 0x1234, 3, 26, 6, 1420, 20⟩)) lookupPart).record 0).ownerSnap =
        some ⟨0, 1⟩ ∧
      ((after (.inductionTag 10 0 (.good ⟨7, 0x3401, 3, 26, 6, 1420, 20⟩)) lookupPart).record 0).ownerSnap =
        some ⟨6, 3⟩ := by decide +kernel

/-- "Worked case: due and end of life" of chapter 3: elapsed 59, interval 60, advance 0; manufacture year 98. -/
theorem test_inductionTag_due :
    let r := (after (.inductionTag 10 0 (.good ⟨7, 0x1234, 3, 26, 6, 1420, 98⟩)) lookupPart).record 0
    r.due = .notDue ∧ .tagDateFuture ∈ r.findings ∧ .endOfLife ∉ r.findings := by decide +kernel

/-- "Worked case: tare" of chapter 3. -/
theorem test_weight_tare_loss :
    let weighed := fun g => (after (.weight 11 0 g true) (queued [0] steel act)).record 0
    (weighed 13630).findings = [] ∧ (weighed 13480).findings = [.tareLoss] ∧
      (weighed 13480).disposition = .condemned := by decide +kernel

theorem test_weight_tare_gain :
    let weighed := fun g => (after (.weight 11 0 g true) (queued [0] steel act)).record 0
    (weighed 14350).findings = [] ∧ (weighed 14450).findings = [.tareGain] ∧
      (weighed 14450).disposition = .hold := by decide +kernel

theorem test_grade_dent : ((after (.grade 12 0 2) (queued [0] steel act)).record 0).disposition = .condemned ∧
    ((after (.grade 12 0 9) (queued [0] steel act)).record 0).findings = [.gradeHold] := by decide +kernel

/-- "Worked case: a passing test" of chapter 4, step 1: Pmax is 275. -/
theorem test_loaded_sends_test :
    let t := after (.loaded 14 0 2 ⟨0, 0⟩) (headAt 2 .assigned id act)
    (t.head 2).state = .pressurizing ∧ t.rpt.orders = [⟨22, .test ⟨0, 0⟩ 250 30 275⟩] := by decide +kernel

/-- Steps 4 to 7 of that case, and the overpressure above 275. -/
theorem test_pressure_reaches_pt :
    (after (.pressure 22 0 251) (headAt 2 .pressurizing id act)).head 2 =
        { HeadRecord.reset with state := .holding, cylinder := some 0, timer := some ⟨.hold, 30000⟩ } ∧
      ((after (.pressure 22 0 248) (headAt 2 .holding id act)).head 2).state = .holding := by decide +kernel

theorem test_pressure_overpressure_and_drop :
    ((after (.pressure 22 0 276) (headAt 2 .holding id act)).record 0).findings = [.hydroOverpressure] ∧
      ((after (.pressure 22 0 244) (headAt 2 .holding id act)).head 2).retest = .automatic := by decide +kernel

/-- Step 8: the sum 7382 gives 1845. -/
theorem test_holdTimerExpiry_mean :
    let t := after (.holdTimerExpiry 2) (headAt 2 .holding (fun h => { h with
      window := [1842, 1846, 1845, 1849], timer := some ⟨.hold, 0⟩ }) act)
    (t.record 0).hydro.map Hydro.et = some 1845 ∧ (t.head 2).state = .venting := by decide +kernel

/-- Step 11 and its variants: Ep 93 gives ratio 50 and PASS, 190 gives 102 and FAIL, 2000 is held at 1000, −6
counts as 0. -/
def measuring : State := put 0 (.head 2) { steel with hydro := some { Hydro.fresh with et := 1845 } }
  (headAt 2 .measuring id act)

theorem test_expansion_verdict :
    let hydro := fun v => ((after (.expansion 22 0 v) measuring).record 0).hydro.map fun y => (y.ratio, y.verdict)
    hydro 93 = some (50, .pass) ∧ hydro 190 = some (102, .fail) ∧ hydro 2000 = some (1000, .fail) ∧
      hydro 0xFFFA = some (0, .pass) := by decide +kernel

/-- "Worked sequence: a slow fill": at the ramp expiry the INVALID is retried, after a vent. -/
theorem test_rampTimerExpiry_retried :
    let t := after (.rampTimerExpiry 1) (headAt 1 .pressurizing (fun h => { h with
      timer := some ⟨.ramp, 0⟩ }) act)
    (t.head 1).state = .venting ∧ (t.head 1).retest = .automatic ∧ t.rpt.orders = [⟨21, .vent ⟨0, 0⟩⟩] := by
  decide +kernel

/-- The same sequence, step 4: the vent's end issues TEST again. -/
theorem test_pressure_vent_end_retests :
    let t := after (.pressure 21 0 0) (headAt 1 .venting (fun h => { h with retest := .automatic }) act)
    (t.head 1).state = .pressurizing ∧ (t.record 0).hydro.map Hydro.retests = some 1 := by decide +kernel

/-- "Worked sequence: losses on the scale stream" of chapter 7, frames 203, 202 and 205. -/
def scale : State := (queued [30, 31, 32, 33, 34] TrackRecord.fresh act).modStream 1 fun _ =>
  ⟨.synced, some 200, 8, List.replicate 30 .clean ++ [.gap, .gap]⟩

theorem test_weight_gap_marks_lost :
    let t := run [.weight 11 200 5000 true, .weight 11 203 5000 true] scale
    (t.record 31).weight = .lost ∧ (t.record 32).findings = [.streamLoss] ∧
      (t.record 33).weight = .measured 5000 true ∧ t.counter .streamGaps = 2 := by decide +kernel

theorem test_weight_stale_then_degraded :
    let t := run [.weight 11 200 5000 true, .weight 11 203 5000 true, .weight 11 202 1 true,
      .weight 11 205 5000 true] scale
    (t.stream 1).state = .degraded ∧ (t.record 34).weight = .lost ∧ t.counter .stale = 1 ∧
      t.counter .unattributed = 1 ∧ t.counter .streamGaps = 3 := by decide +kernel

/-- "Worked sequence: an AUTO jam at gate A" of chapter 7. -/
theorem test_jam_qualifies :
    let t := run [.jam 9 0, .jam 9 1, .jamQualifyExpiry 3] act
    (t.jam 3).state = .jammed ∧ t.lsc.halt.contains (.jam 3) = true ∧ t.rpt.orders = [⟨63, .halt⟩] ∧
      t.rpt.notices = [.event 1 .jamQualified 9] := by decide +kernel

theorem test_clear_qualifies :
    let t := run [.jam 9 0, .jamQualifyExpiry 3, .jam 9 1, .clear 9 2, .clear 9 3, .jamGapExpiry 3] act
    (t.jam 3).state = .jammed ∧
      ((run [.clear 9 4, .clearQualifyExpiry 3] t).rpt.orders = [⟨63, .halt⟩, ⟨63, .resume⟩]) := by
  decide +kernel

/-- R143: the first output of a generator of all ones is 0, and its first fourteen outputs are. -/
theorem test_proveStart_generator : (proveBits 15 (BitVec.allOnes 15)).1 = List.replicate 14 false ++ [true] := by
  decide +kernel

/-- R185: HALT_MANUAL ON in ACTIVE role sends HALT to all nodes. -/
theorem test_haltManualOn : (after (.haltManualOn 1 0) act).rpt.orders = [⟨63, .halt⟩] := by decide +kernel

/-- R45: a month of 0 is taken as 1. -/
theorem test_setDate_clamps :
    let t := after (.setDate 1 9 31 0) act
    t.mga.date = some ⟨31, 1⟩ ∧ t.rpt.replies = [⟨1, 8, 9, .doneClamped, [31, 1]⟩] := by decide +kernel

/-- R127: the generator 0x1021 from all ones, most significant bit first, is the CRC-16 whose published check
value, over the nine characters 1 to 9, is 0x29B1. -/
theorem test_frameReceive_check :
    frameCheck [0x31, 0x32, 0x33, 0x34, 0x35, 0x36, 0x37, 0x38, 0x39] = 0x29B1#16 := by decide +kernel

/-- R141, R143 (log 34): in loop mode LOCAL a PROVE frame returns at the next gap, leaves the list, and is good;
without the loop it stays on the list. -/
theorem test_transmitGap_local_loop :
    let t := fun (mode : Byte) => run [.setLoop 1 0 mode, .transmitGap, .proveStart 1 1, .transmitGap,
      .proveIntervalExpiry, .transmitGap] tra
    ((t 1).rpt.proving.list.length, (t 1).rpt.proving.run) = (1, 0) ∧
      ((after .transmitGap (t 1)).rpt.proving.list.length, (after .transmitGap (t 1)).rpt.proving.run) = (0, 1) ∧
      (after .transmitGap (t 0)).rpt.proving.list.length = 1 := by decide +kernel

/-- R128, R141: a REPLY sent on the loop comes round it and is removed. -/
theorem test_transmitGap_local_loop_removes :
    let t := run [.setLoop 1 0 1, .transmitGap, .transmitGap] tra
    t.rpt.sending = none ∧ t.out.length = 1 := by decide +kernel

/-- R115, R42: PLANT takes the codes of the plant mark other than 63, PRESSURE a tenth of Pt 250. -/
theorem test_setPlantMark_yields :
    let s : State := { act with mga := { act.mga with override := some [3, 63, 5, 63] } }
    s.yields steel .plant = some [.glyph 3, .glyph 5] ∧ s.yields steel .pressure = some [.glyph 2, .glyph 5] ∧
      s.yields steel .serialTail = some [.glyph 0, .glyph 0, .glyph 0, .glyph 7] ∧
      s.yields steel .month = some [.glyph 0, .glyph 5] := by decide +kernel
/-! ## Witnesses: the machine, resets, encodings -/

theorem witness_StepRunsTheFrontCommand :
    (act.setPending [.transmitGap, .powerOnReset]).pending = .transmitGap :: [.powerOnReset] := by decide +kernel

/-- A part that sends a frame of its own, of kind PROVE, on the ring or the loop, with a frame held behind it. -/
def sendingOn (line : List Byte → Emission) (s : State) : State := { s with rpt := { s.rpt with
  sending := some (line (Frame.mk 62 62 7 4 (List.replicate 32 0)).bytes), repeatBuf := [[40, 41, 1, 0, 0, 9, 9]] } }

theorem witness_IdleStepIsOneMillisecond :
    act.pending = [] ∧ act.rpt.sending = none ∧
      ((sendingOn .ring act).pending = [] ∧ (sendingOn .ring act).rpt.sending.isSome = true ∧
        ∀ bytes ∈ (sendingOn .ring act).rpt.sending, ∃ raw, bytes = .ring raw) ∧
      (sendingOn .loop tra).pending = [] ∧ (sendingOn .loop tra).rpt.sending.isSome = true := by
  refine ⟨by decide +kernel, by decide +kernel, ⟨by decide +kernel, by decide +kernel, ?_⟩, by decide +kernel,
    by decide +kernel⟩
  intro bytes h
  exact ⟨_, (Option.some.inj h).symm⟩

/-- Whether a step answers a next state. -/
def steps (s : State) : Bool :=
  match step s with
  | .next _ => true
  | _ => false

/-- A part that tracks and one that does not, to hold the premises of the invariants. -/
def kept : List State := [queued [0] steel act, tra.setPending [.transmitGap]]

theorem witness_StepKeeps_queues :
    ∀ s ∈ kept, steps s = true ∧ s.queuesBounded ∧ s.rolesApart ∧ s.relayRight ∧ s.shaped := by decide +kernel

theorem witness_StepKeeps_inRange : ∀ s ∈ kept,
    (∀ r ∈ s.smn.streams, r.inRange) ∧ (∀ h ∈ s.tbc.heads, h.inRange) ∧ s.rpt.proving.inRange ∧
      s.rol.divergence ≤ 255 ∧ s.mga.counters.length = 22 ∧ (∀ c ∈ s.mga.counters, c ≤ counterMax) ∧
      s.mga.index ≤ s.mga.table.size ∧ s.mga.date = some ⟨31, 5⟩ ∧ (Date.mk 31 5).inRange ∧
      s.mga.override = none := by decide +kernel

theorem witness_StepKeeps_tracksOnlyInRole :
    (act.cfl.loading = false ∧ act.tracking = true) ∧ act.config.legal ∧ tra.inert := by
  refine ⟨?_, ?_, ?_, ?_, ?_, ?_, ?_, ?_, ?_, ?_, ?_, ?_, ?_, ?_, ?_, ?_, ?_, ?_, ?_⟩ <;> decide +kernel

/-- A part at work: a cylinder at each of gate A, a head, the stamping cell and gate B, and one in XQ. -/
def atWork : State :=
  let arrive : List Instr := [.inductionTag 10 0 tag, .atGate 9 0 0, .passed 9 1 2 ⟨0, 0⟩, .stampTag 30 0 tag,
    .stampDone 30 1 ⟨0, 0⟩, .inductionTag 10 1 tag, .atGate 9 2 1, .passed 9 3 2 ⟨1, 0⟩, .stampTag 30 2 tag,
    .inductionTag 10 2 tag, .atGate 9 4 2, .passed 9 5 2 ⟨2, 0⟩, .inductionTag 10 3 tag, .atGate 9 6 3,
    .inductionTag 10 4 tag, .atGate 31 0 0]
  put 4 .intake { steel with weight := .measured 250000 true, grade := .graded 7 } (run arrive act)

theorem witness_StepKeepsTheTrackUnitSound :
    atWork.tracked ∧ atWork.trk.iq = [4] ∧ atWork.trk.gateA = some 3 ∧ atWork.trk.xq = [2] ∧
      atWork.fcu.slot.content = .entry 1 ∧ atWork.trk.gq = [.entry 0] ∧ atWork.fcu.gate.state = .pending ∧
      (atWork.entry 4).place ≠ .free ∧ (atWork.entry 79).place = .free := by decide +kernel

theorem witness_StepKeepsTheTrackUnitSound_bank :
    let t := run [.passed 9 0 0 ⟨0, 0⟩] (gateAPending .bank act)
    t.tracked ∧ (t.head 0).cylinder = some 0 := by decide +kernel

theorem witness_StepKeepsTheTrackUnitSound_claim :
    let s := gateADeferred act
    State.tracked { s with trk := { s.trk with
      fq := List.range' 1 16, claims := [⟨.fq, .gateA 0⟩]
      table := (s.trk.table.take 1) ++ List.replicate 16 ⟨0, .feed, steel⟩ ++ s.trk.table.drop 17 } } := by
  decide +kernel

set_option synthInstance.maxSize 1000 in
theorem witness_StepKeepsTheRanges_records : atWork.recordsInRange :=
  ⟨by decide +kernel, ⟨by decide +kernel, by decide +kernel, by decide +kernel, by decide +kernel,
    by decide +kernel, by decide +kernel⟩, by decide +kernel, by decide +kernel, by decide +kernel,
    by decide +kernel⟩

theorem witness_StepKeeps_stationsUnique : ∀ s ∈ kept, s.stationsUnique := by decide +kernel

theorem witness_ReportsAreReadAsLaidOut : (List.replicate 40 (1 : Column)).length ≤ 40 := by decide +kernel

theorem witness_FramesAreReadAsLaidOut :
    let f : Frame := ⟨63, 1, 3, 0, List.replicate 48 0⟩
    f.payload.length ≤ 48 ∧ (0 : Half) ≠ frameCheck (Frame.mk 63 1 3 0 [5]).body := by decide +kernel

theorem witness_FrameReceiveIsTheTypedCommand :
    (List.replicate 48 (0 : Byte)).length ≤ 48 ∧ act.config.partner ≠ act.ownNode ∧
      (Request.write (List.replicate 47 0)).payload.length ≤ 48 := by decide +kernel

theorem witness_TableEntriesAreReadAsLaidOut :
    (station 62 .head 3 .auto).legal ∧ limits.legal ∧ (OwnerEntry.mk true 1 1 .active 24 15).legal ∧
      (RecallEntry.mk true true 0 false 63 0 (2 ^ 32 - 1) .scrap).legal ∧
      (GlyphEntry.mk 6 (List.replicate 6 1)).legal ∧
      (Element.glyph 63).legal ∧ (Element.space 1).legal ∧ (Element.space 8).legal ∧ Element.month.legal := by decide +kernel

theorem witness_StoredEntriesAreLegal :
    (parseStation [128, 255, 9]).isSome = true ∧ (parseClass (ClassEntry.mk true limits).bytes).isSome = true ∧
      (parseOwner [128, 0, 5, 255, 255, 0, 4]).isSome = true ∧ (parseRecall RecallEntry.reset.bytes).isSome = true ∧
      entryFits .glyph (GlyphEntry.mk 9 (List.replicate 6 1)).bytes = true ∧
      (parseGlyph (GlyphEntry.mk 9 (List.replicate 6 1)).bytes).isSome = true ∧
      (parseTemplate (templateBytes [.space 8, .month])).isSome = true := by decide +kernel

/-- Entries of each length; bytes at and above the last code of a role, a jam mode, a material and an element;
and elements that are all read, the thirteenth of them with a number to clamp. -/
theorem witness_StoredEntriesAreLegal_codes :
    (entryFits .station [128, 255, 9] = true ∧ entryFits .cls (ClassEntry.mk true limits).bytes = true ∧
        entryFits .owner [128, 0, 5, 255, 255, 0, 4] = true ∧ entryFits .recallList RecallEntry.reset.bytes = true ∧
        entryFits .template (23 :: List.replicate 46 (2 : Byte)) = true ∧ (23 : Byte).toNat ≤ 23) ∧
      (8 < (200 : Byte).toNat / 8 % 16 ∧ (198 : Byte).toNat / 2 % 4 = 3 ∧
        ([.induction, .weigh, .inspect, .gateA, .loader, .head, .stamp, .gateB, .other] :
          List StationRole)[(196 : Byte).toNat / 8 % 16]? = some .other ∧
        ([.off, .notify, .auto] : List JamMode)[(196 : Byte).toNat / 2 % 4]? = some .auto) ∧
      ((96 : Byte).toNat / 32 % 4 = 3 ∧
        ([.steel, .aluminium, .composite] : List Material)[(64 : Byte).toNat / 32 % 4]? = some .composite) ∧
      (∃ q ∈ [((2 : Byte), (0 : Byte)), (7, 0)], 6 < q.1.toNat) ∧
      (List.replicate 12 ((2 : Byte), (0 : Byte)) ++ [(1, 0)]).map (fun (q : Byte × Byte) =>
          ([(Element.glyph 0, false), (Element.space 1, true), (Element.month, false)] : List (Element × Bool))[q.1.toNat]?) =
        (List.replicate 12 (Element.month, false) ++ [(Element.space 1, true)]).map some := by decide +kernel

/-- Log 17: a thirteenth element is not stored, but its number counts as clamped, and a code that names nothing
refuses the WRITE. -/
theorem test_write_thirteen_elements :
    let extra := fun (code : Byte) => parseTemplate (12 :: List.replicate 24 (2 : Byte) ++ [code, 0])
    extra 1 = some (List.replicate 12 .month, true) ∧ extra 7 = none := by decide +kernel

/-- Words with the signature, and words without it. -/
theorem witness_ConfigurationLiesInItsRanges :
    (([0x9680] : List Half).getD 0 0xFFFF#16).toNat / 4096 = 9 ∧
      (([] : List Half).getD 0 0xFFFF#16).toNat / 4096 ≠ 9 := by decide +kernel

/-- The states of the resets: the internal one asserted, the reset input, both, with no supply, and none. -/
theorem witness_ResetsHoldThePartUntilReleased :
    let p := (after .powerOnReset res).pins
    let q := (after .pinReset res).pins
    let both := (after .pinReset (after .powerOnReset res)).pins
    (p.supply = true ∧ p.internal = true ∧ p.pin = false) ∧
      (q.supply = true ∧ q.pin = true ∧ q.internal = false) ∧
      (both.internal = true ∧ both.pin = true) ∧
      ((after .supplyLoss res).pins.supply = false ∧ (after .supplyLoss (after .pinReset res)).pins.pin = true) ∧
      res.pins.internal = false ∧ res.pins.pin = false := by decide +kernel

theorem witness_EndOfLoadingEntersTheStartRole :
    (res.cfl.loading = true ∧ (configWord [0x9680] 0).extractLsb' 12 4 = 0b1001#4) ∧
      ((configWord [0xA680] 0).extractLsb' 12 4 ≠ 0b1001#4 ∧ res.rpt.notices.length < 24) ∧
      act.cfl.loading = false := by decide +kernel

/-! ## Witnesses: the ring port -/

theorem witness_RepeatedFramesWaitForAnInsertion :
    act.rpt.sending = none ∧ totalBytes act.rpt.repeatBuf + 20 ≤ (List.replicate 20 (0 : Byte)).length ∧
      (List.replicate 20 (0 : Byte)).length < totalBytes act.rpt.repeatBuf + 21 ∧
      (sendingOn .ring act).rpt.sending = some (.ring (Frame.mk 62 62 7 4 (List.replicate 32 0)).bytes) ∧
      (sendingOn .loop tra).rpt.sending = some (.loop (Frame.mk 62 62 7 4 (List.replicate 32 0)).bytes) := by
  decide +kernel

/-- A part in loop mode LOCAL. -/
def localLoop (s : State) : State := { s with rpt := { s.rpt with loop := .local } }

/-- A frame of node 40 and one of the part's own, of a kind and payload length. -/
def frameOf (src : Node) (kind : Byte) (n : Nat) : List Byte := (Frame.mk 63 src kind 0 (List.replicate n 5)).bytes

theorem witness_ReceivedFramesAreTested : act.onRing = true ∧
    ∀ p ∈ [((40 : Node), false), (62, true)],
      decide (rawSource (frameOf p.1 1 2) = some act.ownNode) = p.2 ∧ overLength (frameOf p.1 1 49) = true ∧
        overLength (frameOf p.1 1 48) = false ∧ parseFrame ((frameOf p.1 1 2) ++ [1]) = none ∧
        ∀ k ∈ [(0 : Byte), 8, 4, 5, 7, 2, 6], (parseFrame (frameOf p.1 k 2)).map Frame.kind = some k := by
  decide +kernel

/-- ORDER and BEACON frames of node 40, no partner, and of the partner, 61, in LOADING and in loop mode LOCAL. -/
theorem witness_ReceivedFramesAreTested_partner : ∀ k ∈ [(2 : Byte), 6],
    ((parseFrame (frameOf 40 k 4)).map (fun f => (f.kind, f.src)) = some (k, 40) ∧ (40 : Node) ≠ act.config.partner) ∧
      ((parseFrame (frameOf 61 k 4)).map (fun f => (f.kind, f.src)) = some (k, 61) ∧ tra.config.partner = 61) ∧
      overLength (frameOf 40 k 4) = false ∧ overLength (frameOf 61 k 4) = false ∧
      (res.onRing = true ∧ res.cfl.loading = true ∧ rawSource (frameOf 61 k 4) ≠ some res.ownNode) ∧
      ((localLoop tra).onRing = true ∧ (localLoop tra).rpt.loop = .local ∧
        rawSource (frameOf 61 k 4) ≠ some (localLoop tra).ownNode) := by decide +kernel

/-- A reply of no account, and a part with `n` of them waiting. -/
def replying (n : Nat) (s : State) : State :=
  { s with rpt := { s.rpt with replies := List.replicate n ⟨1, 1, 0, .done, []⟩ } }

theorem witness_RequestsAreCheckedBeforeTheyAreServed :
    (∀ s ∈ [replying 3 act, replying 4 act, replying 3 res, replying 4 res], s.onRing = true ∧ (5 : Node) ≠ s.ownNode ∧
      (1 : Node) ≠ s.ownNode) ∧
      act.config.own = 62 ∧ act.config.manager = 1 ∧ res.cfl.loading = true ∧ act.cfl.loading = false ∧
      parseRequest 1 [] = none ∧ parseRequest 17 [3] = none := by decide +kernel

/-- Three outstanding orders, two of them with sequence number 7. -/
def outstanding : State := { act with rpt := { act.rpt with outstanding := [⟨5, 9, 50⟩, ⟨7, 14, 50⟩, ⟨7, 20, 50⟩] } }

theorem witness_ReturnedOrdersLeaveTheList :
    outstanding.onRing = true ∧ outstanding.cfl.loading = false ∧ outstanding.rpt.loop = .normal ∧
      (outstanding.rpt.outstanding = [⟨5, 9, 50⟩] ++ ⟨7, 14, 50⟩ :: [⟨7, 20, 50⟩] ∧
        ∀ x ∈ [Outstanding.mk 5 9 50], x.seq ≠ 7) ∧
      (∀ x ∈ outstanding.rpt.outstanding, x.seq ≠ 8) ∧ res.onRing = true ∧ res.cfl.loading = true ∧
      (after (.setLoop 1 0 1) tra).rpt.loop = .local := by decide +kernel

/-- Ring proving with two frames on the list, the checker in a state. -/
def proving (c : Checker) (n : Nat) : State := { tra with rpt := { tra.rpt with proving := { tra.rpt.proving with
  on := true, checker := c, run := n, list := [⟨4, 0⟩, ⟨5, 1⟩] } } }

theorem witness_ReturnedProveFramesAreChecked :
    (∀ s ∈ [proving .off 0, proving .seeking 2, proving .seeking 3, proving .locked 4],
      s.onRing = true ∧ s.cfl.loading = false ∧ s.rpt.loop = .normal ∧
        s.rpt.proving.list = [⟨4, 0⟩] ++ ⟨5, 1⟩ :: [] ∧ ∀ y ∈ s.rpt.proving.list, y.seq ≠ 6) ∧
      ((proving .locked 4).rpt.proving.list = [] ++ ⟨4, 0⟩ :: [⟨5, 1⟩]) ∧
      (res.onRing = true ∧ res.cfl.loading = true) ∧
      ((localLoop (proving .locked 4)).onRing = true ∧ (localLoop (proving .locked 4)).rpt.loop = .local) := by
  decide +kernel

/-- Orders and notices of no account. -/
def order : OrderFrame := ⟨9, .halt⟩

/-- What a transmit gap finds, once the frame under way has been sent. -/
def found (s : State) : State := (s.setOut []).completeSending

theorem witness_TransmitGapTakesTheFirstReadySource :
    let ordering : Nat → State := fun n => { act with rpt := { act.rpt with
      orders := [order], outstanding := List.replicate n ⟨1, 9, 50⟩ } }
    let noticing : State → State := fun s => { s with rpt := { s.rpt with
      notices := [.result 1 (s.resultOf 0), .event 1 .orderLost 9] } }
    let due : State := { proving .off 0 with rpt := { (proving .off 0).rpt with
      proving := { (proving .off 0).rpt.proving with due := true } } }
    ((ordering 15).onRing = true ∧ (ordering 15).isRole .active = true ∧
        (found (ordering 15)).rpt.outstanding.length < 16 ∧ (found (ordering 15)).rpt.orders = order :: []) ∧
      (found (ordering 16)).noOrderReady ∧ (found (replying 1 tra)).noOrderReady ∧
      (found (replying 1 tra)).rpt.replies = ⟨1, 1, 0, .done, []⟩ :: [] ∧
      (found (after .beaconTimerExpiry { act with rol := { act.rol with beaconTimer := some 0 } })).rpt.beaconDue =
        true ∧
      (found (noticing act)).rpt.notices = [] ++ .result 1 (act.resultOf 0) :: [.event 1 .orderLost 9] ∧
      ((noticing tra).isRole .active = false ∧ (∀ x ∈ [Notice.result 1 (tra.resultOf 0)], x.isEvent = false) ∧
        (Notice.event 1 .orderLost 9).isEvent = true) ∧
      ((found act).noOrderReady ∧ (found act).rpt.replies = [] ∧ (found act).rpt.beaconDue = false ∧
        (found act).rpt.notices = [] ∧ (found act).rpt.proving.on = false) ∧
      ((found due).noOrderReady ∧ (found due).rpt.replies = [] ∧ (found due).rpt.beaconDue = false ∧
        (∀ x ∈ (found due).rpt.notices, x.isEvent = false) ∧ (found due).rpt.proving.on = true ∧
        (found due).rpt.proving.due = true) := by
  decide +kernel

theorem witness_ProveFramesContinueTheSequence :
    let p := fun n b => { Proving.reset with list := List.replicate n ⟨0, 0⟩, insertion := b }
    (p 15 true).insertion = true ∧ (p 16 false).insertion = false ∧ (p 15 true).list.length < 16 ∧
      (p 16 true).list.length = 16 ∧ (bytesOfBits (proveBits 256 (p 0 true).generator).1).head? = some 0 := by
  decide +kernel

theorem witness_RingReturnExpiryLosesTheOrder : outstanding.rpt.outstanding[2]? = some ⟨7, 20, 50⟩ := by
  decide +kernel

/-- A part with `n` event notices waiting. -/
def noticed (n : Nat) (s : State) : State :=
  { s with rpt := { s.rpt with notices := List.replicate n (.event 1 .orderLost 9) } }

theorem witness_EventNoticesQueueOrAreCounted :
    (noticed 23 act).rpt.notices.length < 24 ∧ 24 ≤ (noticed 24 act).rpt.notices.length ∧
      act.mga.counters.length = 22 := by decide +kernel

/-! ## Witnesses: what the blocks share -/

theorem witness_FindingsMergeIntoTheDisposition :
    let t := fun f d => ({ TrackRecord.fresh with disposition := d }).addFinding .note f
    (t .tagWeak .lost).disposition = .lost ∧
      ((∃ g ∈ (t .hydroFail .hold).findings, g.severity .note = .condemn) ∧ Disposition.hold ≠ .lost) ∧
      ((∀ g ∈ (t .gradeHold .pending).findings, g.severity .note ≠ .condemn) ∧
        ∃ g ∈ (t .gradeHold .pending).findings, g.severity .note = .hold) ∧
      ∀ g ∈ (t .tagWeak .requalified).findings, g.severity .note = .note := by decide +kernel

/-- R15: the three lists of the severity table, with OWNER_UNKNOWN, are the 30 findings, each once. -/
theorem test_severities_of_the_findings :
    (Finding.all.filter fun f => f.severity .note = .note) = [.tagWeak, .ownerUnknown, .implicitPass] ∧
      (Finding.all.filter fun f => f.severity .hold = .note) = [.tagWeak, .implicitPass] ∧
      (Finding.all.filter fun f => f.severity .hold = .condemn).length = 6 ∧ Finding.all.length = 30 := by
  decide +kernel

/-- A part with `n` orders waiting, and one with `n` expectations. -/
def ordered (n : Nat) : State := { act with rpt := { act.rpt with orders := List.replicate n order } }
def expecting (n : Nat) : State :=
  { sha with rol := { sha.rol with expectations := List.replicate n ⟨9, .assign 1 ⟨0, 0⟩, 80⟩ } }

theorem witness_OrdersGoToTheQueueOrTheExpectations :
    ((ordered 23).isRole .active = true ∧ (ordered 23).rpt.orders.length < 24) ∧
      24 ≤ (ordered 24).rpt.orders.length ∧
      ((expecting 15).isRole .shadow = true ∧ (expecting 15).rol.expectations.length < 16) ∧
      ((expecting 16).rol.expectations = ⟨9, .assign 1 ⟨0, 0⟩, 80⟩ :: List.replicate 15 ⟨9, .assign 1 ⟨0, 0⟩, 80⟩ ∧
        (List.replicate 15 (Expectation.mk 9 (.assign 1 ⟨0, 0⟩) 80)).length = 15) ∧
      act.tracking = true ∧ tra.tracking = false := by decide +kernel

/-- The station map of `stations` splits at the GATE_A entry and at the entry of head 3; an entry that is not valid,
node 40, role OTHER and head 4 are none of it. -/
theorem witness_OrdersGoToTheQueueOrTheExpectations_lookups :
    (act.tables.station = stations.take 3 ++ station 9 .gateA 0 .auto :: stations.drop 4 ∧
        (station 9 .gateA 0 .auto).valid = true ∧ (∀ y ∈ stations.take 3, y.valid = true → y.node ≠ 9) ∧
        ∀ y ∈ stations.take 3, y.valid = true → y.role ≠ .gateA) ∧
      (act.tables.station = stations.take 8 ++ station 23 .head 3 .off :: stations.drop 9 ∧
        (station 23 .head 3 .off).role = .head ∧
        ∀ y ∈ stations.take 8, y.valid = true → y.role = .head → y.head ≠ 3) ∧
      (∀ x ∈ act.tables.station, x.valid = true → x.node ≠ 40) ∧
      (∀ x ∈ act.tables.station, x.valid = true → x.role ≠ .other) ∧
      (∀ x ∈ act.tables.station, x.valid = true → x.role = .head → x.head ≠ 4) := by decide +kernel

theorem witness_LineStopOrdersFollowTheirConditions :
    let two := (act.lsc.halt.add .manual).add (.jam 15)
    (act.lsc.halt.isEmpty = true ∧ (act.lsc.halt.add (.jam 15)).isEmpty = false) ∧
      ((act.lsc.halt.add .overrun).isEmpty = false ∧ ((act.lsc.halt.add .overrun).remove .overrun).isEmpty = true) ∧
      (two.isEmpty = false ∧ (two.remove .manual).isEmpty = false) := by decide +kernel

/-- A part with one claim of each kind, and one whose GQ is full. -/
def claims : State :=
  { act with trk := { act.trk with claims := [⟨.fq, .gateA 0⟩, ⟨.xq, .head 1 2⟩, ⟨.gq, .stampSlot⟩] } }
def full : State := { act with trk := { act.trk with gq := [.marker, .marker, .marker, .marker] } }

theorem witness_FreedPlacesGoToTheOldestClaim :
    (act.occupied .gq + act.reserved .gq < Queue.gq.capacity) ∧
      (claims.trk.claims = [⟨.fq, .gateA 0⟩] ++ ⟨.xq, .head 1 2⟩ :: [⟨.gq, .stampSlot⟩] ∧
        ∀ x ∈ [Claim.mk .fq (.gateA 0)], x.queue ≠ .xq) ∧
      (∀ x ∈ act.trk.claims, x.queue ≠ .xq) ∧
      Queue.gq.capacity ≤ full.occupied .gq + full.reserved .gq ∧
      ((gateAPending .bank act).record 0).reservation = some .fq ∧
      0 < (gateAPending .bank act).trk.table.length ∧
      ((queued [79] steel act).record 79).reservation = none ∧ 79 < act.trk.table.length := by decide +kernel

theorem witness_ClosingListIsServed :
    let closing : State → State := fun s => put 79 .closing steel { s with trk := { s.trk with closing := [79] } }
    ((closing act).trk.closing = 79 :: [] ∧ (closing act).isRole .active = true ∧
        (closing (noticed 23 act)).rpt.notices.length < 24) ∧
      24 ≤ (closing (noticed 24 act)).rpt.notices.length ∧ (closing sha).isRole .shadow = true ∧
      act.trk.closing = [] := by decide +kernel

/-! ## Witnesses: the role unit -/

theorem witness_RoleTimersActAtTheirExpiry :
    ({ act with rol := { act.rol with beaconTimer := some 0 } } : State).rol.beaconTimer.isSome = true ∧
      act.rol.beaconTimer = none ∧ (after (.proveStart 1 0) tra).rpt.proving.interval.isSome = true ∧
      act.rpt.proving.interval = none ∧ (expecting 16).rol.expectations[15]? = some ⟨9, .assign 1 ⟨0, 0⟩, 80⟩ ∧
      (expecting 16).rol.expectations[16]? = none := by decide +kernel

/-- A head in LOADED and in HOLDING; a reference to its cylinder, one of another generation, and one that no head
holds. -/
theorem witness_RoleTimersActAtTheirExpiry_heads :
    let s := headAt 2 .loaded id sha
    ((s.head 2).state = .loaded ∧ ((headAt 2 .holding id sha).head 2).state ≠ .loaded) ∧
      ((s.entry 0).gen = 0 ∧ (s.entry 0).gen ≠ 1 ∧
        s.tbc.heads = [s.head 0, s.head 1] ++ s.head 2 :: [s.head 3] ∧ (s.head 2).cylinder = some 0 ∧
        ∀ x ∈ [s.head 0, s.head 1], x.cylinder ≠ some 0) ∧
      ∀ h ∈ s.tbc.heads, h.cylinder ≠ some 5 := by decide +kernel

/-- A part of the higher node, 62, whose partner is 61, and one of the lower node. -/
def lower : State := { act with cfl := { act.cfl with config := { act.config with own := 60 } } }

/-- A part whose configuration names its own node as the partner's. -/
def same (s : State) : State := { s with cfl := { s.cfl with config := { s.config with partner := s.config.own } } }

theorem witness_PartnerBeaconsAreRecorded :
    (∀ s ∈ [act, sha, tra, lower], s.onRing = true ∧ s.cfl.loading = false ∧ s.rpt.loop = .normal ∧
      s.config.partner ≠ s.ownNode) ∧
      sha.isRole .shadow = true ∧ (act.isRole .active = true ∧ act.config.partner.toNat < act.config.own.toNat) ∧
      (act.isRole .shadow = false ∧ lower.config.own.toNat ≤ lower.config.partner.toNat) ∧
      tra.isRole .active = false ∧
      ((same act).onRing = true ∧ (same act).config.partner = (same act).ownNode) ∧
      (res.onRing = true ∧ res.cfl.loading = true ∧ res.config.partner ≠ res.ownNode) ∧
      ((localLoop tra).onRing = true ∧ (localLoop tra).rpt.loop = .local ∧
        (localLoop tra).config.partner ≠ (localLoop tra).ownNode) := by decide +kernel

theorem witness_PartnerSeenExpiryTakesOver :
    let auto : State := { expecting 16 with cfl := { sha.cfl with config := { sha.config with autoTakeover := true } } }
    (sha.isRole .shadow = true ∧ sha.rol.partnerSeen.isSome = true ∧ sha.config.autoTakeover = false) ∧
      (auto.rol.partnerSeen.isSome = true ∧ auto.config.autoTakeover = true ∧ auto.rol.unfit = false ∧
        auto.rpt.orders.length + auto.rol.expectations.length ≤ 24) ∧
      act.isRole .shadow = false ∧ (part .shadow).rol.partnerSeen = none := by decide +kernel

/-- Cylinder 0 at the head of FQ. -/
def fed (s : State) : State := put 0 .feed steel { s with trk := { s.trk with fq := [0] } }

theorem witness_PartnerOrdersMeetTheExpectations :
    let o : OrderWire := ⟨2, some ⟨0, 0⟩, [1]⟩
    let e : Expectation := ⟨9, .assign 1 ⟨0, 0⟩, 80⟩
    ((expecting 1).onRing = true ∧ (expecting 1).cfl.loading = false ∧ (expecting 1).rpt.loop = .normal ∧
        (expecting 1).config.partner ≠ (expecting 1).ownNode) ∧
      tra.isRole .shadow = false ∧ parseOrder [9, 9] = none ∧
      (parseOrder [2, 1, 0, 0] = some o ∧ (expecting 1).rol.expectations = [] ++ e :: [] ∧
        e.meets 9 o = true ∧ e.order.wire.content = o.content) ∧
      (parseOrder [2, 2, 0, 0] = some ⟨2, some ⟨0, 0⟩, [2]⟩ ∧ e.order.wire.content ≠ [2] ∧
        e.meets 9 ⟨2, some ⟨0, 0⟩, [2]⟩ = true) ∧
      (∀ x ∈ (expecting 1).rol.expectations, x.meets 14 o = false) ∧
      (Expectation.meets 9 ⟨1, some ⟨0, 0⟩, [1, 4]⟩ ⟨9, .routeA .bank ⟨0, 0⟩ 4, 80⟩ = true ∧
        (Order.routeA .bank ⟨0, 0⟩ 4).wire.content ≠ [1, 4]) ∧
      (((headAt 1 .assigned id sha).head 1).cylinder = some 0 ∧
        ((headAt 1 .assigned id sha).head 2).cylinder = none ∧
        (headAt 1 .assigned id sha).tbc.heads.findIdx? (fun r => r.cylinder == some 0 && r.state == .assigned) =
          some 1) ∧
      (((fed sha).head 3).cylinder = none ∧ (fed sha).trk.fq = 0 :: [] ∧ (fed sha).tbc.loader.serving = none ∧
        (fed sha).tbc.heads.findIdx? (fun r => r.cylinder == some 0 && r.state == .assigned) = none ∧
        (fed sha).trk.fq.head? ≠ some 5) ∧
      ((same sha).onRing = true ∧ (same sha).config.partner = (same sha).ownNode) ∧
      (res.onRing = true ∧ res.cfl.loading = true ∧ res.config.partner ≠ res.ownNode) ∧
      ((localLoop tra).onRing = true ∧ (localLoop tra).rpt.loop = .local ∧
        (localLoop tra).config.partner ≠ (localLoop tra).ownNode) := by decide +kernel

/-- R80, R169, R199 (log 35): a partner TEST, unexpected, takes the head out of LOADED, and one of a wrong length
does not; each counts one divergence. -/
theorem test_partnerOrder_test_of_a_wrong_length :
    let t := fun payload => after (.partnerOrder 22 0 payload) (headAt 2 .loaded id sha)
    (((t [3, 0, 0, 0, 250, 0, 30, 1, 19]).head 2).state, (t [3, 0, 0, 0, 250, 0, 30, 1, 19]).rol.divergence) =
        (.pressurizing, 1) ∧
      (((t [3, 0, 0, 0, 250]).head 2).state, (t [3, 0, 0, 0, 250]).rol.divergence) = (.loaded, 1) := by
  decide +kernel

/-! ## Witnesses: reports and jams -/

theorem witness_ReportsPassTheSequenceCheck :
    let at' : Nat → StreamState → Nat → List Mark → State := fun e st n h =>
      act.modStream e fun _ => ⟨st, some 10, n, h⟩
    (act.onRing = true ∧ (11 : Node) ≠ act.ownNode ∧ res.cfl.loading = true ∧ tra.tracking = false) ∧
      (act.stationOf 40 = none ∧ act.tracking = true ∧ act.cfl.loading = false) ∧
      (∀ s ∈ [at' 1 .new 7 [], at' 1 .synced 8 [.gap, .gap, .gap], at' 1 .degraded 7 []], s.maps 11 1) ∧
      (act.stream 1).expected = none ∧ ((9 : Byte) - 10).toNat = 255 ∧ ((137 : Byte) - 10).toNat = 127 ∧
      ((138 : Byte) - 10).toNat = 128 ∧ 10 < (at' 10 .new 0 []).smn.streams.length ∧
      (act.station 1).role.takes .unloaded = false ∧ (act.station 1).role.takes (.weight 0 true) = true := by
  decide +kernel

theorem witness_JamQualifiersFollowTheirReports :
    heard 9 0 .jam 3 (fun u => (u.station 3).jam == .auto && (u.jam 3).state == .idle) act = true ∧
      heard 10 0 .clear 0 (fun u => (u.station 0).jam == .notify) act = true := by decide +kernel

theorem test_jamGapExpiry_notify_clears :
    let t := run [.jam 10 0, .jamQualifyExpiry 0, .jamGapExpiry 0] act
    (t.jam 0).state = .idle ∧ t.rpt.notices = [.event 1 .jamQualified 10, .event 1 .jamCleared 10] := by
  decide +kernel
/-! ## Witnesses: intake and the gates -/

/-- A part whose track table has no FREE entry. -/
def crowded : State := { act with trk := { act.trk with table := List.replicate 80 ⟨0, .finish, steel⟩ } }

theorem witness_InductionTagsTakeTheLowestFreeEntry :
    (readIdentity .noread = none ∧ readIdentity tag = some someone) ∧
      (readIdentity (.weak ⟨0xFFFFFFFF, 0, 63, 99, 1, 100, 99⟩)).isSome = true ∧
      (readIdentity (.good ⟨7, 5, 63, 99, 12, 20000, 99⟩)).isSome = true ∧
      (∀ f ∈ [TagFields.mk 7 5 64 26 6 1420 20, ⟨7, 5, 3, 100, 6, 1420, 20⟩, ⟨7, 5, 3, 26, 0, 1420, 20⟩,
          ⟨7, 5, 3, 26, 13, 1420, 20⟩, ⟨7, 5, 3, 26, 6, 99, 20⟩, ⟨7, 5, 3, 26, 6, 20001, 20⟩,
          ⟨7, 5, 3, 26, 6, 1420, 100⟩], readIdentity (.good f) = none) ∧
      heard 10 0 (.tag tag) 0 (fun u => (u.station 0).role == .induction && u.trk.table.all fun x => x.place != .free)
        crowded = true ∧
      heard 10 0 (.tag tag) 0 (fun u => u.trk.iq.length == 24) (queued (List.range 24) steel act) = true ∧
      heard 10 0 (.tag tag) 0 (fun u => u.trk.iq.length == 23 && (u.entry 23).place == .free &&
        (u.trk.table.take 23).all fun x => x.place != .free) (queued (List.range 23) steel act) = true := by
  decide +kernel

theorem witness_MeasurementsReachTheOldestEntryLackingThem :
    let lost : TrackRecord := { steel with weight := .lost, grade := .lost }
    let two := put 6 .intake steel (queued [5, 6] lost act)
    heard 11 0 (.weight 250001 true) 1 (fun u => (u.station 1).role == .weigh && u.trk.iq.all fun i =>
        (u.record i).weight != .absent) (queued [5] lost act) = true ∧
      heard 11 0 (.weight 250001 false) 1 (fun u => u.trk.iq == [5] ++ 6 :: [] && (u.record 5).weight == .lost &&
        (u.record 6).weight == .absent && !(u.record 6).atGate) two = true ∧
      heard 12 0 (.grade 255) 2 (fun u => (u.station 2).role == .inspect && u.trk.iq == []) act = true ∧
      heard 12 0 (.grade 7) 2 (fun u => (u.record 5).grade == .lost && (u.record 6).grade == .absent) two = true := by
  decide +kernel

theorem witness_GateAServesTheHeadOfTheIntakeQueue :
    heard 9 0 (.atGate 4) 3 (fun u => (u.station 3).role == .gateA && u.scr.gate.state == .idle && u.trk.iq == [0])
        (queued [0] steel act) = true ∧
      heard 9 0 (.atGate 5) 3 (fun u => u.scr.gate.state == .deferred) (gateADeferred act) = true ∧
      (∀ a ∈ [(4 : Byte), 5], heard 9 0 (.atGate a) 3 (fun u => u.scr.gate.state == .pending &&
        u.scr.gate.item == some (.entry 0) && u.scr.gate.ordered == some .bank && u.scr.gate.stored == some 4)
          (gateAPending .bank act) = true) := by decide +kernel

theorem witness_GateAPassagesMoveTheServedEntry :
    heard 9 0 (.passed 0 ⟨0, 0⟩) 3 (fun u => (u.station 3).role == .gateA && u.scr.gate.state != .pending) act = true ∧
      heard 9 0 (.passed 3 ⟨0, 0⟩) 3 (fun u => u.scr.gate.state == .pending) (gateAPending .bank act) = true ∧
      (∀ r ∈ [RouteA.bank, .bypass, .returnBack], ∀ ordered ∈ [RouteA.bank, .bypass, .returnBack],
        heard 9 0 (.passed (byte (RouteA.code r)) ⟨0, 0⟩) 3 (fun u => u.scr.gate.state == .pending &&
          u.scr.gate.item == some (.entry 0) && u.scr.gate.ordered == some ordered) (gateAPending ordered act) = true) ∧
      RouteA.code .returnBack ≤ 2 := by decide +kernel

/-- R18, R14: a cylinder closed LOST gives its place in FQ up. -/
theorem test_closeLost_gives_up_the_place :
    let t := (gateAPending .bank act).closeLost 0
    t.reserved .fq = 0 ∧ t.trk.closing = [0] ∧ (t.entry 0).place = .closing ∧
      (gateAPending .bank act).reserved .fq = 1 := by decide +kernel

/-- R65, R66: a cylinder not due is returned, and its ROUTE carries the arrival number. -/
theorem test_atGate_returns_not_due :
    let r : TrackRecord := { steel with due := .notDue, weight := .measured 14200 true, grade := .graded 0 }
    (after (.atGate 9 0 4) (queued [0] r act)).rpt.orders = [⟨9, .routeA .returnBack ⟨0, 0⟩ 4⟩] := by decide +kernel

/-- R70, R76: a PASSED on BANK offers the cylinder to head 0 at once. -/
theorem test_passed_bank_assigns :
    let t := after (.passed 9 0 (byte (RouteA.code .bank)) ⟨0, 0⟩) (gateAPending .bank act)
    (t.head 0).state = .assigned ∧ t.rpt.orders = [⟨14, .assign 0 ⟨0, 0⟩⟩] ∧ t.scr.gate.last = some 4 := by
  decide +kernel

/-! ## Witnesses: the test bank -/

theorem witness_BankOrdersComeWithTheirEffects :
    ((headAt 1 .venting (fun h => { h with release := .claimed }) act).head 1).release ≠ .none ∧
      ((headAt 1 .venting id act).head 1).release = .none ∧
      ((fed act).tbc.loader.serving = none ∧ (fed act).trk.fq = 0 :: [] ∧
        (fed act).tbc.heads = [] ++ HeadRecord.reset :: List.replicate 3 HeadRecord.reset) ∧
      (let t := headAt 0 .assigned id (fed act);
        t.tbc.heads.take 1 = [t.head 0] ∧ (t.head 0).state ≠ .empty ∧ (t.head 1).state = .empty) ∧
      act.trk.fq = [] ∧ ((fed act).record 0).classSnap = some limits ∧ (act.record 0).classSnap = none := by
  decide +kernel

theorem witness_LoadedCylindersAreTestedOrHeld :
    let loading := fun n => headAt n .assigned id { act with tbc := { act.tbc with
      loader := { serving := some n, timer := some 9 } } }
    let held := put 0 (.head 3) { steel with disposition := .hold } (loading 3)
    heard 14 0 (.loaded 4 ⟨0, 0⟩) 4 (fun u => (u.station 4).role == .loader) act = true ∧
      heard 14 0 (.loaded 2 ⟨0, 0⟩) 4 (fun u => (u.head 2).state != .assigned) act = true ∧
      heard 14 0 (.loaded 3 ⟨0, 0⟩) 4 (fun u => (u.head 3).state == .assigned && (u.head 3).cylinder == some 0 &&
        (u.record 0).disposition == .hold) held = true ∧
      heard 14 0 (.loaded 3 ⟨0, 0⟩) 4 (fun u => (u.record 0).disposition == .pending) (loading 3) = true ∧
      ((loading 3).tbc.loader.serving = some 3 ∧ (loading 3).tbc.loader.timer.isSome = true ∧
        ((loading 3).head 3).cylinder = some 0) ∧ act.tbc.loader.timer = none := by decide +kernel

theorem witness_PressureSamplesDriveTheTest :
    heard 23 0 (.pressure 65535) 8 (fun u => (u.station 8).role == .head && (u.head 3).cylinder == none) act = true ∧
      (∀ st ∈ [HeadState.assigned, .done, .loaded, .pressurizing, .holding, .venting, .settling, .measuring],
        heard 23 0 (.pressure 250) 8 (fun u => (u.station 8).head == 3 && headIs 3 st u &&
          (u.head 3).cylinder == some 0) (headAt 3 st id act) = true) := by decide +kernel

theorem witness_ExpansionSamplesGiveTheVerdict :
    heard 20 0 (.expansion 30001) 5 (fun u => (u.station 5).role == .head && (u.head 0).cylinder == none) act = true ∧
      (∀ st ∈ [HeadState.pressurizing, .venting, .loaded, .holding, .settling],
        heard 20 0 (.expansion 9) 5 (fun u => (u.station 5).head == 0 && headIs 0 st u &&
          (u.head 0).cylinder == some 0) (headAt 0 st id act) = true) ∧
      (∀ d ∈ [true, false], heard 22 0 (.expansion 93) 7 (fun u => headIs 2 .measuring u &&
        (u.head 2).degradedSeen == d && (u.record 0).hydro.map Hydro.et == some 1845)
          (measuring.modHead 2 fun h => { h with degradedSeen := d }) = true) ∧
      min (1000 * 93 / 1845) 1000 ≤ limits.permLimit ∧ ¬ min (1000 * 190 / 1845) 1000 ≤ limits.permLimit := by
  decide +kernel

theorem witness_StepTimersAdvanceTheTest :
    let timed := fun k w => headAt 3 .holding (fun h => { h with timer := some ⟨k, 0⟩, window := w }) act
    (∀ k ∈ [StepKind.ramp, .hold, .vent, .settle, .measure], ((timed k []).head 3).cylinder = some 0 ∧
      ((timed k []).head 3).timer = some ⟨k, 0⟩) ∧
      ((timed .hold [1, 2, 3]).head 3).window.length < 4 ∧
      (4 ≤ ((timed .hold [0, 0, 1, 2]).head 3).window.length ∧ [0, 0, 1, 2].sum / 4 = 0) ∧ [1, 1, 1, 1].sum / 4 ≠ 0 ∧
      (act.head 3).timer = none := by decide +kernel

theorem witness_UnloadsAndHeadFaultsEndTheTest :
    heard 21 0 .unloaded 6 (fun u => (u.station 6).role == .head && (u.head 1).cylinder == none) act = true ∧
      heard 21 0 .headFault 6 (fun u => (u.head 1).cylinder == none) act = true ∧
      (∀ st ∈ [Stage.sent, .claimed], heard 21 0 .unloaded 6 (fun u => headIs 1 .done u && (u.head 1).release == st &&
        (u.head 1).cylinder == some 0) (headAt 1 .done (fun h => { h with release := st }) act) = true) ∧
      (∀ st ∈ [HeadState.assigned, .holding], heard 21 0 .unloaded 6 (fun u => headIs 1 st u)
        (headAt 1 st id act) = true ∧ heard 21 0 .headFault 6 (fun u => (u.head 1).cylinder == some 0)
        (headAt 1 st id act) = true) := by decide +kernel

/-- R96 (log 36): a head unloaded in ASSIGNED takes the next cylinder of FQ itself. -/
theorem test_unloaded_assigned :
    let s := put 1 .feed steel (headAt 0 .assigned id act)
    let t := after (.unloaded 20 0) { s with
      trk := { s.trk with fq := [1] }, tbc := { s.tbc with loader := { serving := some 0, timer := some 9 } } }
    t.trk.xq = [0] ∧ (t.head 0).cylinder = some 1 ∧ t.tbc.loader.serving = some 0 ∧
      t.rpt.orders = [⟨14, .assign 0 ⟨1, 0⟩⟩] := by decide +kernel

/-- Log 3: the expiry of a load timer that does not run has no effect. -/
theorem test_loadTimerExpiry_stopped : after .loadTimerExpiry act = act.setOut [] := by decide +kernel

/-! ## Witnesses: the finish cell -/

/-- Cylinder 0 at the head of XQ, with a disposition. -/
def finished (r : TrackRecord) (s : State) : State := put 0 .finish r { s with trk := { s.trk with xq := [0] } }

theorem witness_StampTagsFillTheSlot :
    (∀ st ∈ [Stage.sent, .claimed], heard 30 0 (.tag tag) 9 (fun u => (u.station 9).role == .stamp &&
      u.fcu.slot.content == .entry 0 && u.fcu.slot.stage == st && u.fcu.slot.image == some ⟨[1], 1, 2⟩ &&
      (u.record 0).identity == some someone) (slotAt (.entry 0) st act) = true) ∧
      heard 30 0 (.tag tag) 9 (fun u => u.fcu.slot.content == .marker (some (7, 5)) && u.fcu.slot.image == none)
        { act with fcu := { act.fcu with slot := { StampSlot.reset with content := .marker (some (7, 5)) } } } = true ∧
      heard 30 0 (.tag .noread) 9 (fun u => u.fcu.slot.content == .entry 0) (slotAt (.entry 0) .sent act) = true ∧
      heard 30 0 (.tag tag) 9 (fun u => u.trk.xq == [0] && (u.record 0).identity == some someone)
        (finished steel act) = true := by decide +kernel

/-- An entry to be stamped with a pass, and the glyphs of a template of 11 glyphs: 11 × 4 columns and 10 between
them and one space make 55 columns, in segments of 40 and 15. -/
def stamping : State := finished { steel with disposition := .requalified, ownerSnap := some ⟨0, 1⟩,
                                              hydro := some { Hydro.fresh with verdict := .pass } } { act with
  tables := { act.tables with
    glyph := List.replicate 64 ⟨4, [1, 2, 3, 4, 5, 6]⟩
    template := act.tables.template.set 1 (List.replicate 11 (.glyph 9) ++ [.space 1]) } }

theorem test_stampTag_55_columns :
    let t := after (.stampTag 30 0 tag) stamping
    t.fcu.slot.stage = .sent ∧ (t.record 0).stampStatus = .sent ∧
      t.fcu.slot.image.map (fun i => (i.columns.length, i.segments)) = some (55, 2) ∧
      t.rpt.orders.map (fun o => o.order.payload.length) = [7 + 40, 7 + 15] := by decide +kernel

theorem witness_StampImagesFollowTheirTemplate :
    (∀ c, Piece.glyph c ∈ [Piece.glyph 9, .blank 3] → (stamping.glyph c).legal) ∧
      (List.replicate 96 (1 : Column)).length ≤ 96 ∧ (slotAt (.entry 0) .none act).fcu.slot.content = .entry 0 ∧
      (stamping.record 0).disposition = .requalified ∧
      (stamping.compose (stamping.record 0) (stamping.tables.template.getD 1 [])).isSome = true ∧
      stamping.compose (stamping.record 0) (stamping.tables.template.getD 2 []) = none ∧
      (slotAt (.marker none) .none act).fcu.slot.content = .marker none := by
  refine ⟨?_, by decide +kernel⟩
  intro c hc
  simp only [List.mem_cons, Piece.glyph.injEq, List.not_mem_nil, or_false, reduceCtorEq] at hc
  subst hc
  decide +kernel

theorem witness_StampOutcomesMoveTheContentToGateB :
    heard 30 0 (.stampDone ⟨0, 0⟩) 9 (fun u => (u.station 9).role == .stamp && u.fcu.slot.content == .empty) act = true ∧
      heard 30 0 (.stampFault ⟨0, 0⟩) 9 (fun u => u.fcu.slot.stage == .claimed) (slotAt (.entry 0) .claimed act) = true ∧
      (∀ c ∈ [SlotContent.entry 0, .marker none], ∀ r ∈ [Report.stampDone ⟨0, 0⟩, .stampFault ⟨255, 0⟩],
        heard 30 0 r 9 (fun u => u.fcu.slot.content == c && u.fcu.slot.stage == .sent) (slotAt c .sent act) = true) := by
  decide +kernel

theorem test_stampDone : let t := after (.stampDone 30 0 ⟨0, 0⟩) (slotAt (.entry 0) .sent act)
    t.trk.gq = [.entry 0] ∧ (t.record 0).stampStatus = .done ∧ t.fcu.slot = StampSlot.reset := by decide +kernel

theorem test_stampFault : let t := after (.stampFault 30 0 ⟨0, 0⟩) (slotAt (.entry 0) .sent act)
    (t.record 0).stampStatus = .fault ∧ (t.record 0).disposition = .hold := by decide +kernel

theorem witness_GateBServesTheHeadOfItsQueue :
    heard 31 0 (.atGate 4) 10 (fun u => (u.station 10).role == .gateB && u.fcu.gate.state == .idle) act = true ∧
      (∀ it ∈ [Item.entry 0, .marker], ∀ r ∈ [Report.atGate 4, .atGate 5, .passed 0 ⟨0, 0⟩, .passed 2 ⟨0, 0⟩,
          .passed 3 ⟨0, 0⟩],
        heard 31 0 r 10 (fun u => u.fcu.gate.state == .pending && u.fcu.gate.item == some it &&
          u.fcu.gate.ordered == some .bench && u.fcu.gate.stored == some 4) (gateBPending it .bench act) = true) ∧
      heard 31 0 (.passed 0 ⟨0, 0⟩) 10 (fun u => u.fcu.gate.state != .pending) act = true ∧
      (∀ r ∈ [RouteB.fill, .scrap, .bench], RouteB.code r ≤ 2) := by decide +kernel

/-- R112, R114: a stranger gets one STAMP of no columns. -/
theorem test_stampTag_stranger :
    (after (.stampTag 30 0 tag) act).rpt.orders = [⟨30, .stamp none 0 1 0 []⟩] := by decide +kernel

/-! ## Witnesses: requests -/

/-- A record with every part present, within its ranges, at a head; and one with none. -/
theorem witness_ReadingRequestsAnswerWithTheState_track :
    let r : TrackRecord := { steel with
      ownerSnap := some ⟨24, 15⟩, weight := .measured 250000 false, grade := .graded 7
      hydro := some { Hydro.fresh with verdict := .pass, et := 30000, retests := 3, date := some ⟨99, 12⟩ } }
    (r.inRange ∧ ∀ n, Location.head 3 = .head n → n < 4) ∧ TrackRecord.fresh.inRange := by
  refine ⟨⟨by decide +kernel, ?_⟩, by decide +kernel⟩
  intro n h
  cases h
  decide

theorem witness_ReadingRequestsAnswerWithTheState :
    let at' : TableName → Nat → State := fun t i => { act with mga := { act.mga with table := t, index := i } }
    (at' .owner 127).hearsRequest 5 ∧
      (∀ t ∈ [TableName.station, .cls, .owner, .recallList, .glyph, .template],
        (byte t.code).toNat = t.code ∧ t.size ≤ 128 ∧ (at' t (t.size - 1)).mga.index < (at' t 0).mga.table.size ∧
          (at' t t.size).mga.table.size ≤ (at' t t.size).mga.index) ∧
      ((79 : Byte).toNat < 80 ∧ 80 ≤ (80 : Byte).toNat) := by decide +kernel

theorem test_trackRead : ((after (.trackRead 5 3 80) act).rpt.replies = [⟨5, 5, 3, .range, []⟩]) := by decide +kernel

theorem test_counters : ((after (.counters 5 3 2) act).rpt.replies.map fun r => r.data.length) = [33] := by
  decide +kernel

theorem witness_WritesStoreTheEntryAtThePointer :
    let at' : TableName → Nat → State := fun t i => { act with mga := { act.mga with table := t, index := i } }
    (at' .station 15).hearsManager 1 ∧ entryFits .station [1] = false ∧ entryFits .station [128, 3, 0] = true ∧
      TableName.station.size ≤ (at' .station 16).mga.index ∧ parseStation [8 * 9 + 128, 3, 0] = none ∧
      (parseStation [128, 3, 0]).isSome = true ∧ (act.station 0).role = .induction ∧
      (∀ t ∈ [TableName.cls, .owner, .recallList, .glyph, .template],
        entryFits t (act.tableEntry t 0) = true ∧ (at' t 0).mga.index < t.size) ∧
      (parseClass (act.tableEntry .cls 0)).isSome = true ∧ (parseOwner (act.tableEntry .owner 0)).isSome = true ∧
      (parseGlyph (act.tableEntry .glyph 0)).isSome = true ∧ (parseRecall (act.tableEntry .recallList 0)).isSome = true ∧
      (parseTemplate (act.tableEntry .template 0)).isSome = true ∧
      parseClass ((act.tableEntry .cls 0).set 0 96) = none ∧ entryFits .template [1, 9, 0] = true ∧
      parseTemplate [1, 9, 0] = none ∧
      ((parseRecall (RecallEntry.mk true true 0 true 0 9 3 .scrap).bytes).map fun p => decide (p.1.last < p.1.first)) =
        some true ∧
      ((parseRecall (RecallEntry.mk true true 0 true 0 3 3 .scrap).bytes).map fun p => decide (p.1.first ≤ p.1.last)) =
        some true := by decide +kernel

/-- R30: a second valid INDUCTION entry is refused, and rewriting entry 0 with its own role is not. -/
theorem test_write_conflict :
    ((after (.write 1 0 [128, 40, 0]) { act with mga := { act.mga with index := 11 } }).rpt.replies.map Reply.code,
      (after (.write 1 0 [128, 10, 0]) act).rpt.replies.map Reply.code) = ([.conflict], [.done]) := by decide +kernel

theorem witness_ManagerSettingsAreStored :
    (∀ s ∈ [act, tra, proving .seeking 0], s.hearsManager 1) ∧ tra.isRole .transparent = true ∧
      act.isRole .transparent = false ∧ act.isRole .active = true ∧ tra.isRole .active = false ∧
      (proving .seeking 0).rpt.proving.on = true ∧ tra.rpt.proving.on = false := by decide +kernel

theorem witness_RolesAndRestartsClearWhatTheyShould :
    (∀ s ∈ [act, sha, tra, after (.setLoop 1 0 1) tra], (replying 3 s).hearsManager 1) ∧
      act.isRole .active = true ∧ sha.isRole .shadow = true ∧ tra.isRole .transparent = true ∧
      (expecting 16).rpt.orders.length + (expecting 16).rol.expectations.length ≤ 24 ∧
      ((expecting 16).hearsManager 1 ∧ (expecting 16).isRole .shadow = true) ∧ tra.rpt.loop = .normal ∧ (after (.setLoop 1 0 1) tra).rpt.loop = .local := by decide +kernel

/-- R24, R197: a RESTART under pressure vents the head and frees the cylinder with its generation advanced. -/
theorem test_restart :
    let t := after (.restart 1 0) (headAt 1 .holding id act)
    t.rpt.orders = [⟨21, .vent ⟨0, 0⟩⟩] ∧ t.entry 0 = ⟨1, .free, TrackRecord.fresh⟩ ∧ t.cfl.cause = .restart := by
  decide +kernel

theorem test_setRole_shadow_demotes :
    let t := after (.setRole 1 0 (byte (Role.code .shadow))) (ordered 3)
    t.rpt.orders = [] ∧ t.isRole .shadow = true ∧ t.rpt.notices = [.event 1 .demoted 1] := by decide +kernel

theorem witness_HeadRequestsActOnTheHead :
    act.hearsManager 1 ∧ (act.head 3).state = .empty ∧ (act.head 3).cylinder = none ∧
      (∀ st ∈ [HeadState.pressurizing, .holding, .venting, .settling, .measuring, .loaded, .assigned, .done],
        ∀ b ∈ [true, false], let h := (headAt 3 st (fun h => { h with fixed := b }) act).head 3
          h.state = st ∧ h.cylinder = some 0 ∧ h.fixed = b) ∧
      (∀ st ∈ [HeadState.disabled, .faulted],
        ((act.modHead 0 fun h => { h with state := st }).head 0).state = st) := by decide +kernel

theorem test_disable_enable :
    ((after (.disable 1 0 2) act).head 2).state = .disabled ∧
      ((run [.disable 1 0 2, .transmitGap, .enable 1 1 2] act).head 2) = HeadRecord.reset ∧
      (after (.disable 1 0 1) (headAt 1 .holding id act)).rpt.replies.map Reply.code = [.busy] := by decide +kernel

theorem test_retest_abort :
    ((after (.retest 1 0 1) (headAt 1 .holding id act)).head 1).state = .pressurizing ∧
      ((after (.abort 1 0 1) (headAt 1 .holding id act)).record 0).findings = [.hydroInvalid] := by decide +kernel

/-- Gate A waiting for a place in XQ for a held cylinder. -/
def bypassing : State :=
  let s := put 0 .intake { steel with atGate := true, disposition := .hold } (gateADeferred act)
  { s with trk := { s.trk with claims := [⟨.xq, .gateA 0⟩] }, scr := { gate := { s.scr.gate with ordered := some .bypass } } }

/-- R63: a deferred BYPASS keeps its route and its claim. -/
theorem test_trackHold_bypass :
    let t := after (.trackHold 1 0 ⟨0, 0⟩) bypassing
    t.trk.claims = [⟨.xq, .gateA 0⟩] ∧ t.scr.gate.ordered = some .bypass ∧ t.rpt.orders = [] := by decide +kernel

theorem witness_HoldsAndHaltsAreServed :
    let once := fun (s : State) => s.addFinding 0 .operatorHold
    (∀ s ∈ [act, sha, tra], s.hearsManager 1) ∧
      ((act.entry 79).place = .free ∧ ((put 79 .closing steel act).entry 79).place = .closing) ∧
      (((put 79 .intake steel act).entry 79).place = .intake ∧ ((put 79 .intake steel act).entry 79).gen = 0) ∧
      (.operatorHold ∈ ((once (queued [0] steel act)).record 0).findings ∧ .operatorHold ∉ steel.findings) ∧
      (act.scr.gate.item ≠ some (.entry 0) ∧ act.fcu.gate.item ≠ some (.entry 0)) ∧
      (let g := gateBPending (.entry 0) .fill act;
        g.fcu.gate.item = some (.entry 0) ∧ g.scr.gate.item ≠ some (.entry 0) ∧ g.fcu.gate.state = .pending ∧
          g.fcu.gate.ordered = some .fill ∧ g.fcu.gate.stored = some 4) ∧
      (let g := gateAPending .bank act;
        g.scr.gate.item = some (.entry 0) ∧ g.fcu.gate.item ≠ some (.entry 0) ∧ g.scr.gate.state = .pending) ∧
      (let g := gateADeferred act;
        g.scr.gate.state = .deferred ∧ g.scr.gate.ordered = some .bank ∧ (g.record 0).disposition ≠ .lost) ∧
      (let g := bypassing;
        g.hearsManager 1 ∧ g.scr.gate.item = some (.entry 0) ∧ g.fcu.gate.item ≠ some (.entry 0) ∧
          g.scr.gate.state = .deferred ∧ g.scr.gate.ordered = some .bypass ∧ (g.record 0).disposition ≠ .lost ∧
          (g.entry 0).place = .intake ∧ .operatorHold ∉ (g.record 0).findings) ∧
      act.isRole .active = true ∧ sha.isRole .shadow = true ∧ tra.tracking = false ∧ act.tracking = true := by
  decide +kernel

/-- R63, R122: a cylinder ordered to FILL is held, and the gate is ordered to BENCH it. -/
theorem test_trackHold_reroutes :
    (after (.trackHold 1 0 ⟨0, 0⟩) (gateBPending (.entry 0) .fill act)).rpt.orders =
      [⟨31, .routeB .bench (some ⟨0, 0⟩) 4⟩] := by decide +kernel
end Sys2Proof.Tests
end

/-! The finish cell: what the reports of the stamping cell do (R105 to R114, R119, R120). -/

namespace Sys2Proof.Machine

/-! ### Entries changed twice -/

/-- A list place rewritten from what stands in it, twice, is rewritten once; past the end nothing is. -/
theorem set_getD_set_getD {α : Type} (l : List α) (i : Nat) (d : α) (f g : α → α) :
    (l.set i (f (l.getD i d))).set i (g ((l.set i (f (l.getD i d))).getD i d)) = l.set i (g (f (l.getD i d))) := by
  by_cases hi : i < l.length
  · simp [hi]
  · simp [List.set_eq_of_length_le, Nat.le_of_not_lt hi]

theorem State.modEntry_modEntry (i : Nat) (f g : TrackEntry → TrackEntry) (s : State) :
    (s.modEntry i f).modEntry i g = s.modEntry i fun e => g (f e) := by
  simp only [State.modEntry, State.modTrk, set_getD_set_getD]

theorem State.modRecord_modRecord (i : Nat) (f g : TrackRecord → TrackRecord) (s : State) :
    (s.modRecord i f).modRecord i g = s.modRecord i fun r => g (f r) :=
  s.modEntry_modEntry i _ _

/-! ### The tables under the blocks' operations -/

/-- The tracking blocks leave the loaded tables as they stand. -/
theorem keptTables (t : Tables) : Kept fun s => s.tables = t where
  out _ _ h := h
  free _ _ h := h
  entry _ _ _ h := h
  places _ _ _ h := h
  gateA _ _ h := h
  fcu _ _ h := h
  lsc _ _ h := h
  head _ _ _ _ h := h
  loader _ _ _ h := h
  stream _ _ _ _ h := h
  jam _ _ _ h := h
  count _ _ _ h := h
  notice _ _ _ h := h
  order s d o _ h := by
    unfold State.enqueueOrder
    split <;> exact h
  forget _ _ _ h := h
  expect _ _ _ _ _ _ h := h
  diverged _ _ _ h := h
  unfit _ h := h

@[simp] theorem State.send_tables (d : Option Node) (o : Order) (s : State) : (s.send d o).tables = s.tables :=
  (keptTables s.tables).send d o rfl

/-- R33: where an order goes is settled by the station table, so by what it was before orders were built. -/
theorem State.roleNode_congr {s u : State} (r : StationRole) (h : s.tables = u.tables) :
    s.roleNode r = u.roleNode r := by
  unfold State.roleNode
  rw [h]

/-- R118: orders built one after the other to a station all go to the node it had at the first. -/
theorem State.foldl_send_roleNode (r : StationRole) (o : Nat → Order) (u : State) (ks : List Nat) :
    ∀ s : State, s.tables = u.tables →
      ks.foldl (fun v k => v.send (v.roleNode r) (o k)) s = ks.foldl (fun v k => v.send (u.roleNode r) (o k)) s := by
  induction ks with
  | nil => intro s _; rfl
  | cons k ks ih =>
    intro s h
    simp only [List.foldl_cons, State.roleNode_congr r h]
    exact ih _ (by rw [State.send_tables, h])

/-- R107, R118: the held image's orders, one per segment. -/
theorem State.sendImage_eq (img : Image) (s : State) :
    s.sendImage img =
      (List.range img.segments).foldl (fun v k => v.send (s.roleNode .stamp) (img.order s.slotRef k)) s :=
  State.foldl_send_roleNode .stamp _ s _ s rfl

/-! ### The stamping cell's reports reach it -/

section
variable {s u : State} {src : Node} {seq : Byte} {e : Nat}

/-- R32: what the stamping cell's block does with each report it takes. -/
theorem State.dispatch_stamp (hr : (u.station e).role = .stamp) :
    (∀ tag, u.dispatch e (.tag tag) = u.takeStampTag e tag) ∧
      (∀ ref, u.dispatch e (.stampDone ref) = u.takeStampDone) ∧
      ∀ ref, u.dispatch e (.stampFault ref) = u.takeStampFault := by
  unfold State.dispatch
  dsimp only
  rw [hr]
  exact ⟨fun _ => rfl, fun _ => rfl, fun _ => rfl⟩

theorem exec_stampTag {tag : TagRead} (h : s.hears src seq (.tag tag) e u)
    (hr : (u.station e).role = .stamp) : exec (.stampTag src seq tag) s = .next (u.takeStampTag e tag) := by
  obtain ⟨htag, _, _⟩ := State.dispatch_stamp (u := u) (e := e) hr
  exact (State.report_hears h).trans (congrArg _ (htag tag))

theorem exec_stampDone {ref : WireRef} (h : s.hears src seq (.stampDone ref) e u)
    (hr : (u.station e).role = .stamp) : exec (.stampDone src seq ref) s = .next u.takeStampDone := by
  obtain ⟨_, hdone, _⟩ := State.dispatch_stamp (u := u) (e := e) hr
  exact (State.report_hears h).trans (congrArg _ (hdone ref))

theorem exec_stampFault {ref : WireRef} (h : s.hears src seq (.stampFault ref) e u)
    (hr : (u.station e).role = .stamp) : exec (.stampFault src seq ref) s = .next u.takeStampFault := by
  obtain ⟨_, _, hfault⟩ := State.dispatch_stamp (u := u) (e := e) hr
  exact (State.report_hears h).trans (congrArg _ (hfault ref))
end

/-! ### Stamp outcomes (R119, R120) -/

section
variable {s : State} {i : Nat} {m : Option (Nat × Half)}

/-- R12, R119: an entry leaves the slot for GQ, its reservation converting. -/
theorem State.slotToGq_entry (hc : s.fcu.slot.content = .entry i) :
    s.slotToGq = ((s.clearSlot).dropReservation i).joinGq (.entry i) := by
  simp only [State.slotToGq, hc]

theorem State.slotToGq_marker (hc : s.fcu.slot.content = .marker m) :
    s.slotToGq = s.clearSlot.joinGq .marker := by
  simp only [State.slotToGq, hc]

/-- What is entered in the record as the entry leaves, and the end of its reservation, are one change. -/
theorem State.modRecord_slotToGq (f : TrackRecord → TrackRecord) (hc : s.fcu.slot.content = .entry i) :
    (s.modRecord i f).slotToGq =
      ((s.modRecord i fun r => { f r with reservation := none }).clearSlot).joinGq (.entry i) := by
  have hm : (s.modRecord i f).fcu.slot.content = .entry i := hc
  rw [State.slotToGq_entry hm]
  exact congrArg (fun v : State => v.clearSlot.joinGq (.entry i))
    (s.modRecord_modRecord i f fun r => { r with reservation := none })

/-- R120: an outcome with the slot empty, or before its stage is SENT, is stray. -/
theorem State.takeStampDone_stray (h : s.fcu.slot.content = .empty ∨ s.fcu.slot.stage ≠ .sent) :
    s.takeStampDone = s.stray := by
  unfold State.takeStampDone
  split <;> simp_all

theorem State.takeStampFault_stray (h : s.fcu.slot.content = .empty ∨ s.fcu.slot.stage ≠ .sent) :
    s.takeStampFault = s.stray := by
  unfold State.takeStampFault
  split <;> simp_all

/-- R119: an outcome for an entry is entered in its record, and the entry moves on. -/
theorem State.takeStampDone_entry (hc : s.fcu.slot.content = .entry i) (hs : s.fcu.slot.stage = .sent) :
    s.takeStampDone = (s.modRecord i TrackRecord.stampDone).slotToGq := by
  simp only [State.takeStampDone, hc, hs]

theorem State.takeStampFault_entry (hc : s.fcu.slot.content = .entry i) (hs : s.fcu.slot.stage = .sent) :
    s.takeStampFault = (s.modRecord i fun r =>
      { r with stampStatus := .fault }.addFinding s.config.unknownOwner .stampFault).slotToGq := by
  simp only [State.takeStampFault, hc, hs]
  exact congrArg State.slotToGq (s.modRecord_modRecord i _ _)

/-- R119: a marker moves on with either outcome. -/
theorem State.takeStampDone_marker (hc : s.fcu.slot.content = .marker m) (hs : s.fcu.slot.stage = .sent) :
    s.takeStampDone = s.clearSlot.joinGq .marker := by
  simp only [State.takeStampDone, hc, hs, State.slotToGq_marker hc]

theorem State.takeStampFault_marker (hc : s.fcu.slot.content = .marker m) (hs : s.fcu.slot.stage = .sent) :
    s.takeStampFault = s.clearSlot.joinGq .marker := by
  simp only [State.takeStampFault, hc, hs, State.slotToGq_marker hc]
end

/-- Settles O53: the outcome is entered in the record first, and the record's reservation ends in the same
change. -/
theorem stampOutcomesMoveTheContentToGateB : Obligations.StampOutcomesMoveTheContentToGateB := by
  intro s u src seq ref e hr
  refine ⟨fun h => ?done, fun h => ?fault⟩
  case done =>
    rw [exec_stampDone h hr]
    refine ⟨fun hs => ?_, fun i hc hs => ?_, fun m hc hs => ?_⟩
    · rw [State.takeStampDone_stray hs]; rfl
    · rw [State.takeStampDone_entry hc hs, State.modRecord_slotToGq _ hc]; rfl
    · rw [State.takeStampDone_marker hc hs]; rfl
  case fault =>
    rw [exec_stampFault h hr]
    refine ⟨fun hs => ?_, fun i hc hs => ?_, fun m hc hs => ?_⟩
    · rw [State.takeStampFault_stray hs]; rfl
    · rw [State.takeStampFault_entry hc hs, State.modRecord_slotToGq _ hc]; rfl
    · rw [State.takeStampFault_marker hc hs]; rfl

/-! ### The stamp tag (R106 to R114) -/

section
variable {s : State} {tag : TagRead} {read : Option Identity} {e : Nat}

/-- R107: a repeat is answered from the held image. -/
theorem State.takeStampTag_repeat (hr : readIdentity tag = read) (h : read.any s.slotMatches = true) :
    s.takeStampTag e tag = s.answerRepeat := by
  simp only [State.takeStampTag, hr, h, if_true]

/-- R108 to R114: any other read: the content is overtaken, a cylinder taken in, a GQ place asked for. -/
theorem State.takeStampTag_new (hr : readIdentity tag = read) (h : read.any s.slotMatches = false) :
    s.takeStampTag e tag =
      (((if s.fcu.slot.content = .empty then s else s.overtake).search read).doubtSlot
        (s.degraded e)).requestStamp := by
  simp only [State.takeStampTag, hr, h, Bool.false_eq_true, if_false]

theorem State.answerRepeat_sent {img : Image} (hi : s.fcu.slot.image = some img) (hs : s.fcu.slot.stage = .sent) :
    s.answerRepeat = s.sendImage img := by
  simp only [State.answerRepeat, hi, hs]

theorem State.answerRepeat_early (h : s.fcu.slot.stage ≠ .sent) : s.answerRepeat = s := by
  unfold State.answerRepeat
  split
  · contradiction
  · rfl

theorem State.answerRepeat_noImage (h : s.fcu.slot.image = none) : s.answerRepeat = s := by
  unfold State.answerRepeat
  rw [h]
  split
  · contradiction
  · rfl

/-- R13: room in GQ, spelt out. -/
theorem State.ite_room_gq (s a b : State) :
    (if s.room .gq then a else b) = if s.trk.gq.length + s.reserved .gq < 4 then a else b := by
  have hroom : s.room .gq = true ↔ s.trk.gq.length + s.reserved .gq < 4 := s.room_iff .gq
  by_cases h : s.room .gq = true
  · rw [if_pos h, if_pos (hroom.mp h)]
  · rw [if_neg h, if_neg (mt hroom.mpr h)]

/-- R108: what becomes of an entry that a new cylinder overtakes: on its reservation where its stage is SENT,
else without its claim and as room allows. -/
theorem State.overtake_entry {i : Nat} (hc : s.fcu.slot.content = .entry i) :
    s.overtake =
      let v := (s.setStampStatus i .unconfirmed).addFinding i .stampUnconfirmed
      if s.fcu.slot.stage = .sent then ((v.clearSlot).dropReservation i).joinGq (.entry i)
      else
        let w := v.withdrawSlot.clearSlot
        if w.trk.gq.length + w.reserved .gq < 4 then w.joinGq (.entry i) else w.closeForRoom i := by
  have hv : ((s.setStampStatus i .unconfirmed).addFinding i .stampUnconfirmed).fcu = s.fcu := rfl
  have hw : ∀ v : State, v.withdrawSlot.fcu = v.fcu := fun _ => rfl
  simp only [State.overtake, hc, hv, State.slotToGq, State.slotToGqUnreserved, hw, State.ite_room_gq]
  cases s.fcu.slot.stage <;> rfl

theorem State.overtake_marker {m : Option (Nat × Half)} (hc : s.fcu.slot.content = .marker m) :
    s.overtake =
      if s.fcu.slot.stage = .sent then s.clearSlot.joinGq .marker
      else
        let w := s.withdrawSlot.clearSlot
        if w.trk.gq.length + w.reserved .gq < 4 then w.joinGq .marker
        else w.overrun.notify .overrun w.trk.gq.length := by
  have hw : s.withdrawSlot.fcu = s.fcu := rfl
  simp only [State.overtake, hc, State.slotToGq, State.slotToGqUnreserved, hw, State.ite_room_gq]
  cases s.fcu.slot.stage <;> rfl

/-- R111: after a NOREAD the head of XQ is taken by physical order. -/
theorem State.unmatched_noread (s : State) :
    s.unmatched none = match s.trk.xq with
      | i :: _ => (s.addFinding i .identityDoubt).fromXq i
      | [] => s.stranger none := by
  unfold State.unmatched State.xqByOrder
  cases s.trk.xq <;> rfl

/-- R111, R112: after a read that matches nothing it is taken where it has no identity. -/
theorem State.unmatched_read (id : Identity) (s : State) :
    s.unmatched (some id) = match s.trk.xq with
      | i :: _ => if (s.record i).identity = none then (s.addFinding i .identityDoubt).fromXq i
          else s.stranger (some id)
      | [] => s.stranger (some id) := by
  unfold State.unmatched State.xqByOrder
  cases s.trk.xq with
  | nil => rfl
  | cons i rest => cases hi : (s.record i).identity <;> simp [hi]

/-- R109 to R112: the search for a read, step by step. -/
theorem State.search_read (id : Identity) (s : State) :
    s.search (some id) = match s.trk.xq.find? (s.entryMatches id) with
      | some i => if s.trk.xq.head? = some i then s.fromXq i else (s.addFinding i .identityDoubt).fromXq i
      | none =>
        match s.tbc.heads.findIdx? fun h => h.state == .done && h.cylinder.any (s.entryMatches id) with
        | some n =>
          match (s.head n).cylinder with
          | some i => s.fromHead n i
          | none => s.unmatched (some id)
        | none => s.unmatched (some id) := by
  unfold State.search State.doneHead
  dsimp only
  cases s.trk.xq.find? (s.entryMatches id) with
  | some i => rfl
  | none =>
    cases s.tbc.heads.findIdx? fun h => h.state == .done && h.cylinder.any (s.entryMatches id) with
    | none => rfl
    | some n => cases hc : (s.head n).cylinder <;> simp [hc]

/-- R114: a GQ place is asked for: taken, or claimed. -/
theorem State.requestStamp_eq (s : State) :
    s.requestStamp = if s.trk.gq.length + s.reserved .gq < 4 then s.takeStampPlace
      else (s.lodge .gq .stampSlot).modSlot fun c => { c with stage := .claimed } :=
  s.ite_room_gq _ _
end

/-- Settles O51: a repeat is answered from the held image, whose orders all go to the node the station table
names; any other read runs through the overtaking, the search, the doubt and the request for a place, and each
state of the statement is the one that the block's own function gives. -/
theorem stampTagsFillTheSlot : Obligations.StampTagsFillTheSlot := by
  intro s u src seq tag e h hr read
  rw [exec_stampTag h hr]
  have hread : readIdentity tag = read := rfl
  clear_value read
  intro agrees again
  have hagain : again = read.any u.slotMatches := by
    simp only [again]
    unfold State.slotMatches
    cases read with
    | none => rfl
    | some id =>
      cases u.fcu.slot.content with
      | empty => rfl
      | entry i => rfl
      | marker m => cases m <;> rfl
  rw [hagain]
  refine ⟨fun ha img hi => ?_, fun ha hi => ?_, fun ha => ?_⟩
  · rw [State.takeStampTag_repeat hread ha]
    refine ⟨fun hs => ?_, fun hs => ?_⟩
    · rw [State.answerRepeat_sent hi hs, State.sendImage_eq]; rfl
    · rw [State.answerRepeat_early hs]
  · rw [State.takeStampTag_repeat hread ha, State.answerRepeat_noImage hi]
  · intro doubt emptied unclaimed toGq overtaken intoSlot fromXq stranger byOrder v placed w
    have hover : v = if u.fcu.slot.content = .empty then u else u.overtake := by
      simp only [v, overtaken]
      cases hc : u.fcu.slot.content with
      | empty => rfl
      | entry i => rw [State.overtake_entry hc]; rfl
      | marker m => rw [State.overtake_marker hc]; rfl
    have hbyOrder : ∀ v, byOrder v = v.unmatched read := by
      intro v
      simp only [byOrder]
      cases read with
      | none => rw [State.unmatched_noread]; cases v.trk.xq <;> rfl
      | some id => rw [State.unmatched_read]; cases v.trk.xq <;> rfl
    have hplaced : placed = v.search read := by
      simp only [placed, hbyOrder]
      cases read with
      | none => rfl
      | some id => rw [State.search_read]; rfl
    have hw : w = placed.doubtSlot (u.degraded e) := by
      simp only [w]
      unfold State.doubtSlot
      cases placed.fcu.slot.content <;> rfl
    rw [State.takeStampTag_new hread ha, ← hover, ← hplaced, ← hw, State.requestStamp_eq]
    rfl

end Sys2Proof.Machine

/-! The line stops and the jam qualifiers (R151 to R154, R156 to R160). -/

namespace Sys2Proof.Machine

/-! ### The halt set -/

/-- R156: a cause of the halt set: a JAM cause is that of one of the 16 station entries. -/
def Cause.Known (c : Cause) : Prop := c = .overrun ∨ c = .manual ∨ ∃ e < 16, c = .jam e

/-- A JAM cause is one bit of the word of JAM causes, and no other cause's. -/
theorem getLsbD_jamBit {e : Nat} (he : e < 16) (d : Nat) :
    (1#16 <<< e).getLsbD d = decide (Cause.jam d = Cause.jam e) := by
  rw [← BitVec.twoPow_eq, BitVec.getLsbD_twoPow]
  simp [he, eq_comm]

/-- R156: what the halt set holds after a cause was added. -/
theorem HaltSet.contains_add (h : HaltSet) {c : Cause} (hc : c.Known) (d : Cause) :
    (h.add c).contains d = (decide (d = c) || h.contains d) := by
  obtain rfl | rfl | ⟨e, he, rfl⟩ := hc
  case inl | inr.inl => cases d <;> simp [HaltSet.add, HaltSet.contains]
  case inr.inr =>
    cases d with
    | jam d =>
      simp only [HaltSet.add, HaltSet.contains, BitVec.getLsbD_or, getLsbD_jamBit he]
      exact Bool.or_comm _ _
    | overrun | manual => simp [HaltSet.add, HaltSet.contains]

/-- R156: what the halt set holds after a cause was removed. -/
theorem HaltSet.contains_remove (h : HaltSet) {c : Cause} (hc : c.Known) (d : Cause) :
    (h.remove c).contains d = (decide (d ≠ c) && h.contains d) := by
  obtain rfl | rfl | ⟨e, he, rfl⟩ := hc
  case inl | inr.inl => cases d <;> simp [HaltSet.remove, HaltSet.contains]
  case inr.inr =>
    cases d with
    | jam d =>
      have hlow : h.jams.getLsbD d = true → d < 16 := BitVec.lt_of_getLsbD
      simp only [HaltSet.remove, HaltSet.contains, BitVec.getLsbD_and, BitVec.getLsbD_not, getLsbD_jamBit he]
      cases hd : h.jams.getLsbD d with
      | false => simp
      | true => simp [hlow hd]
    | overrun | manual => simp [HaltSet.remove, HaltSet.contains]

section
variable {s : State} {c : Cause}

/-- R157: the first cause sends HALT. -/
theorem State.addCause_first (h : s.lsc.halt.isEmpty = true) (h' : (s.lsc.halt.add c).isEmpty = false) :
    s.addCause c = (s.modLsc fun l => { l with halt := l.halt.add c }).send (some broadcast) .halt := by
  simp [State.addCause, h, h']

/-- R157: a further cause sends nothing. -/
theorem State.addCause_further (h : s.lsc.halt.isEmpty = false) :
    s.addCause c = s.modLsc fun l => { l with halt := l.halt.add c } := by
  simp [State.addCause, h]

/-- R157: the last cause to leave sends RESUME. -/
theorem State.removeCause_last (h : s.lsc.halt.isEmpty = false) (h' : (s.lsc.halt.remove c).isEmpty = true) :
    s.removeCause c = (s.modLsc fun l => { l with halt := l.halt.remove c }).send (some broadcast) .resume := by
  simp [State.removeCause, h, h']

/-- R157: while the set stays as empty, or as full, as it was, a removal sends nothing. -/
theorem State.removeCause_quiet
    (h : s.lsc.halt.isEmpty = true ∨ (s.lsc.halt.remove c).isEmpty = false) :
    s.removeCause c = s.modLsc fun l => { l with halt := l.halt.remove c } := by
  obtain h | h := h <;> simp [State.removeCause, h]
end

/-! ### The feed hold -/

section
variable {s : State} {n : Nat}

/-- The feed set to what it is. -/
theorem State.modLsc_feed_self {f : FeedState} (h : s.lsc.feed = f) :
    (s.modLsc fun l => { l with feed := f }) = s := by
  subst h
  rfl

/-- R159: with the feed at GO, only the high watermark acts. -/
theorem State.reportIq_go (h : s.lsc.feed = .go) :
    s.reportIq n = State.modLsc (fun l => { l with lastIq := n })
      (if s.config.iqHigh ≤ n then
        (s.modLsc fun l => { l with feed := .hold }).send (s.roleNode .induction) .feedHold
      else s) := by
  simp only [State.reportIq, h]

/-- R159, R160: with the feed at HOLD, the low watermark acts, and above it each rise of IQ. -/
theorem State.reportIq_hold (h : s.lsc.feed = .hold) :
    s.reportIq n = State.modLsc (fun l => { l with lastIq := n })
      (if n ≤ s.config.iqLow then
        (s.modLsc fun l => { l with feed := .go }).send (s.roleNode .induction) .feedGo
      else if s.lsc.lastIq < n then s.send (s.roleNode .induction) .feedHold
      else s) := by
  simp only [State.reportIq, h]
end

/-- Settles O32: the orders follow from the four changes of the halt set and the two states of the feed; where
the feed stays as it was, the statement sets it again to the same. -/
theorem lineStopOrdersFollowTheirConditions : Obligations.LineStopOrdersFollowTheirConditions := by
  intro s
  refine ⟨fun c => ⟨State.addCause_first, State.addCause_further, State.removeCause_last,
    State.removeCause_quiet, fun d hc => ⟨s.lsc.halt.contains_add hc d, s.lsc.halt.contains_remove hc d⟩⟩, ?feed⟩
  intro n feed
  cases hf : s.lsc.feed with
  | go =>
    rw [State.reportIq_go hf, if_pos rfl]
    split
    · rfl
    · exact congrArg (State.modLsc fun l => { l with lastIq := n }) (State.modLsc_feed_self hf).symm
  | hold =>
    have stays := State.modLsc_feed_self hf
    rw [State.reportIq_hold hf, if_neg (show ¬ FeedState.hold = .go from nofun)]
    split
    · rfl
    · split
      · exact congrArg (fun t : State => (t.send (s.roleNode .induction) .feedHold).modLsc
          fun l => { l with lastIq := n }) stays.symm
      · exact congrArg (State.modLsc fun l => { l with lastIq := n }) stays.symm

/-! ### The jam qualifiers: reports -/

section
variable (s : State) (e : Nat)

/-- A change of a qualifier is settled by what it makes of the qualifier that stands there. -/
theorem State.modJam_congr {f g : JamQualifier → JamQualifier} (h : f (s.jam e) = g (s.jam e)) :
    s.modJam e f = s.modJam e g :=
  congrArg (fun q => s.modSmn fun m => { m with jams := m.jams.set e q }) h

/-- R152 to R154: what a JAM that is heeded makes of a qualifier. -/
def JamQualifier.heardJam (c : Configuration) (q : JamQualifier) : JamQualifier :=
  match q.state with
  | .idle => { q with state := .qualifying, qualify := some c.jamQualify, gap := some c.jamGap }
  | .qualifying => { q with gap := some c.jamGap }
  | .jammed => { q with gap := some c.jamGap }
  | .clearing => { q with state := .jammed, clear := none, gap := none }

/-- R151 to R154: in mode OFF no JAM is heeded, nor in AUTO one while JAMMED; a NOTIFY qualifier is never
CLEARING. -/
def JamMode.ignoresJam (m : JamMode) (q : JamState) : Prop :=
  m = .off ∨ (m = .auto ∧ q = .jammed) ∨ (m = .notify ∧ q = .clearing)

theorem State.takeJam_ignored (h : (s.station e).jam.ignoresJam (s.jam e).state) : s.takeJam e = s := by
  obtain hm | ⟨hm, hq⟩ | ⟨hm, hq⟩ := h
  · simp only [State.takeJam, hm]
  · simp only [State.takeJam, hm, hq]
  · simp only [State.takeJam, hm, hq]

theorem State.takeJam_heeded (h : ¬ (s.station e).jam.ignoresJam (s.jam e).state) :
    s.takeJam e = s.modJam e (JamQualifier.heardJam s.config) := by
  unfold State.takeJam
  split
  case h_1 hm => exact absurd (.inl hm) h
  case h_2 hq _ => exact s.modJam_congr e (by simp only [JamQualifier.heardJam, hq])
  case h_3 hq _ => exact s.modJam_congr e (by simp only [JamQualifier.heardJam, hq])
  case h_4 hm hq => exact s.modJam_congr e (by simp only [JamQualifier.heardJam, hq])
  case h_5 hm hq => exact s.modJam_congr e (by simp only [JamQualifier.heardJam, hq])
  case h_6 hoff hidle hqual hnotify hauto =>
    exfalso
    cases hq : (s.jam e).state with
    | idle => exact hidle hq
    | qualifying => exact hqual hq
    | jammed =>
      cases hm : (s.station e).jam with
      | off => exact hoff hm
      | notify => exact hnotify hm hq
      | auto => exact h (.inr (.inl ⟨hm, hq⟩))
    | clearing =>
      cases hm : (s.station e).jam with
      | off => exact hoff hm
      | notify => exact h (.inr (.inr ⟨hm, hq⟩))
      | auto => exact hauto hm hq

/-- R153, R154: only an AUTO qualifier that is JAMMED or CLEARING heeds a CLEAR. -/
theorem State.takeClear_eq :
    s.takeClear e =
      if (s.station e).jam = .auto ∧ (s.jam e).state = .jammed then s.startClearing e
      else if (s.station e).jam = .auto ∧ (s.jam e).state = .clearing then s.armGap e
      else s := by
  unfold State.takeClear
  split
  case h_1 hm hq => rw [if_pos ⟨hm, hq⟩]
  case h_2 hm hq => rw [if_neg (by simp [hq]), if_pos ⟨hm, hq⟩]
  case h_3 hj hc => rw [if_neg fun ⟨hm, hq⟩ => hj hm hq, if_neg fun ⟨hm, hq⟩ => hc hm hq]

/-! ### The jam qualifiers: timers -/

/-- R152: the qualify timer acts in QUALIFYING, by the jam mode. -/
theorem State.qualifyExpired_eq :
    s.qualifyExpired e =
      if (s.jam e).qualify.isSome = true ∧ (s.jam e).state = .qualifying ∧ (s.station e).jam = .notify then
        (s.modJam e fun q => { q with state := .jammed, qualify := none }).notify .jamQualified (s.nodeArg e)
      else if (s.jam e).qualify.isSome = true ∧ (s.jam e).state = .qualifying ∧ (s.station e).jam = .auto then
        ((s.modJam e fun q => { q with state := .jammed, qualify := none, gap := none }).notify
          .jamQualified (s.nodeArg e)).addCause (.jam e)
      else s := by
  unfold State.qualifyExpired
  split
  case h_1 hr hm hq => rw [if_pos ⟨by rw [hr]; rfl, hq, hm⟩]
  case h_2 hr hm hq => rw [if_neg (by simp [hm]), if_pos ⟨by rw [hr]; rfl, hq, hm⟩]
  case h_3 hn ha =>
    have hnotify : ¬ ((s.jam e).qualify.isSome = true ∧ (s.jam e).state = .qualifying ∧
        (s.station e).jam = .notify) := fun ⟨hr, hq, hm⟩ => hn _ (Option.some_get hr).symm hm hq
    have hauto : ¬ ((s.jam e).qualify.isSome = true ∧ (s.jam e).state = .qualifying ∧
        (s.station e).jam = .auto) := fun ⟨hr, hq, hm⟩ => ha _ (Option.some_get hr).symm hm hq
    rw [if_neg hnotify, if_neg hauto]

/-- R152 to R154: the gap timer acts in QUALIFYING, in a NOTIFY jam and in an AUTO clearing. -/
theorem State.gapExpired_eq :
    s.gapExpired e =
      if (s.jam e).gap.isSome = true ∧ (s.station e).jam ≠ .off ∧ (s.jam e).state = .qualifying then s.idleJam e
      else if (s.jam e).gap.isSome = true ∧ (s.station e).jam = .notify ∧ (s.jam e).state = .jammed then
        (s.idleJam e).notify .jamCleared (s.nodeArg e)
      else if (s.jam e).gap.isSome = true ∧ (s.station e).jam = .auto ∧ (s.jam e).state = .clearing then
        s.fallBack e
      else s := by
  unfold State.gapExpired
  split
  case h_1 hr => simp [hr]
  case h_2 hm _ => simp [hm]
  case h_3 hq hr hm => rw [if_pos ⟨Option.isSome_iff_ne_none.mpr hr, hm, hq⟩]
  case h_4 hm hq hr => rw [if_neg (by simp [hq]), if_pos ⟨Option.isSome_iff_ne_none.mpr hr, hm, hq⟩]
  case h_5 hm hq hr =>
    rw [if_neg (by simp [hq]), if_neg (by simp [hq]), if_pos ⟨Option.isSome_iff_ne_none.mpr hr, hm, hq⟩]
  case h_6 hqual hnotify hauto =>
    rw [if_neg fun ⟨_, _, hq⟩ => hqual hq, if_neg fun ⟨_, hm, hq⟩ => hnotify hm hq,
      if_neg fun ⟨_, hm, hq⟩ => hauto hm hq]

/-- R154: the clear-qualify timer acts in an AUTO clearing. -/
theorem State.clearExpired_eq :
    s.clearExpired e =
      if (s.jam e).clear.isSome = true ∧ (s.station e).jam = .auto ∧ (s.jam e).state = .clearing then
        ((s.idleJam e).removeCause (.jam e)).notify .jamCleared (s.nodeArg e)
      else s := by
  unfold State.clearExpired
  split
  case h_1 hr hm hq => rw [if_pos ⟨by rw [hr]; rfl, hm, hq⟩]
  case h_2 hn => rw [if_neg fun ⟨hr, hm, hq⟩ => hn _ (Option.some_get hr).symm hm hq]
end

/-- Settles O40: each report and each expiry does what its qualifier's rule says, in the state that hears it. -/
theorem jamQualifiersFollowTheirReports : Obligations.JamQualifiersFollowTheirReports := by
  intro s u src seq e q mode gap
  refine ⟨fun h => ?jam, fun h => ?clear, fun k => ⟨?qualifyEnds, ?gapEnds, ?clearEnds⟩⟩
  case jam =>
    refine (State.report_hears h).trans (congrArg _ ?_)
    split
    case isTrue hi => exact u.takeJam_ignored e hi
    case isFalse hi => exact u.takeJam_heeded e hi
  case clear => exact (State.report_hears h).trans (congrArg _ (u.takeClear_eq e))
  case qualifyEnds => exact congrArg _ ((s.setOut []).qualifyExpired_eq k)
  case gapEnds => exact congrArg _ ((s.setOut []).gapExpired_eq k)
  case clearEnds => exact congrArg _ ((s.setOut []).clearExpired_eq k)

end Sys2Proof.Machine

/-! The role unit: who holds orders and who holds expectations (R164, R167), and the takeover (R172, R173). -/

namespace Sys2Proof.Machine

/-! ### What notices, the line restart and a takeover leave as it stands -/

section
variable {P : State → Prop} {s : State}

@[simp] theorem State.notify_cfl (s : State) (k : EventKind) (a : Nat) : (s.notify k a).cfl = s.cfl := by
  unfold State.notify
  split <;> rfl

/-- R104 step 1: a VENT is all that a restart does to a head that may hold pressure. -/
theorem Kept.restartVent (K : Kept P) (n : Nat) (h : P s) : P (s.restartVent n) := by
  unfold State.restartVent
  split
  · split
    · exact K.sendVent _ _ h
    · exact h
  · exact h

theorem Kept.restartVents (K : Kept P) (h : P s) : P s.restartVents :=
  K.restartVent 3 (K.restartVent 2 (K.restartVent 1 (K.restartVent 0 h)))

theorem Kept.emptyHalt (K : Kept P) (h : P s) : P s.emptyHalt := by
  unfold State.emptyHalt
  dsimp only
  split
  · exact K.lsc _ _ h
  · exact K.send _ _ (K.lsc _ _ h)

/-- R132: the order queue and the counters are all that an order given to the queue can change. -/
theorem State.enqueueOrder_touches (s : State) (d : Node) (o : Order) :
    ∃ q c, s.enqueueOrder d o =
      (s.modRpt fun r => { r with orders := q }).modMga fun m => { m with counters := c } := by
  unfold State.enqueueOrder
  split
  · exact ⟨s.rpt.orders ++ [⟨d, o⟩], s.mga.counters, rfl⟩
  · exact ⟨s.rpt.orders, (s.count .ordersDropped 1).mga.counters, rfl⟩

/-- R173 step 2: so it is with several orders, one after the other. -/
theorem State.enqueueAll_touches (es : List Expectation) (s : State) :
    ∃ q c, es.foldl (fun s e => s.enqueueOrder e.dst e.order) s =
      (s.modRpt fun r => { r with orders := q }).modMga fun m => { m with counters := c } := by
  induction es generalizing s with
  | nil => exact ⟨s.rpt.orders, s.mga.counters, rfl⟩
  | cons e es ih =>
    obtain ⟨q, c, hfirst⟩ := s.enqueueOrder_touches e.dst e.order
    obtain ⟨q', c', hrest⟩ := ih (s.enqueueOrder e.dst e.order)
    exact ⟨q', c', hrest.trans (by rw [hfirst]; rfl)⟩

/-- R173 step 2: while the queue has room for them all, the orders join it in their order. -/
theorem State.enqueueAll_room (es : List Expectation) (s : State) (h : s.rpt.orders.length + es.length ≤ 24) :
    es.foldl (fun s e => s.enqueueOrder e.dst e.order) s =
      s.modRpt fun r => { r with orders := r.orders ++ es.map fun e => ⟨e.dst, e.order⟩ } := by
  induction es generalizing s with
  | nil => simp [State.modRpt]
  | cons e es ih =>
    have hlen : s.rpt.orders.length < orderCapacity := by
      rw [List.length_cons] at h
      unfold orderCapacity
      omega
    have hfirst : s.enqueueOrder e.dst e.order =
        s.modRpt fun r => { r with orders := r.orders ++ [⟨e.dst, e.order⟩] } := if_pos hlen
    rw [List.foldl_cons, hfirst, ih]
    · simp [State.modRpt]
    · simp only [State.modRpt_rpt, List.length_append, List.length_cons, List.length_nil] at h ⊢
      omega
end

/-! ### Orders are the ACTIVE part's, expectations the SHADOW part's -/

section
variable {s : State}

/-- A part that holds a role is not in LOADING. -/
theorem State.rolesApart.loading_eq {r : Role} (h : s.rolesApart) (hr : s.isRole r = true) :
    s.cfl.loading = false := by
  obtain ⟨hloading, _, _⟩ := h
  rw [State.isRole_iff] at hr
  cases hl : s.cfl.loading with
  | false => rfl
  | true => cases (hloading hl).symm.trans hr

theorem State.rolesApart_of_active (hl : s.cfl.loading = false) (hr : s.rol.role = some .active)
    (he : s.rol.expectations = []) : s.rolesApart := by
  have ha : s.isRole .active = true := (s.isRole_iff _).mpr hr
  exact ⟨fun h => by simp [hl] at h, fun h => by simp [ha] at h, fun _ => he⟩

theorem State.rolesApart_of_shadow (hl : s.cfl.loading = false) (hr : s.rol.role = some .shadow)
    (ho : s.rpt.orders = []) (hs : s.rpt.outstanding = []) : s.rolesApart := by
  have hsh : s.isRole .shadow = true := (s.isRole_iff _).mpr hr
  exact ⟨fun h => by simp [hl] at h, fun _ => ⟨ho, hs⟩, fun h => by simp [hsh] at h⟩

/-- A part that holds neither orders nor expectations may hold any role. -/
theorem State.rolesApart_of_empty (hl : s.cfl.loading = true → s.rol.role = none) (ho : s.rpt.orders = [])
    (hs : s.rpt.outstanding = []) (he : s.rol.expectations = []) : s.rolesApart :=
  ⟨hl, fun _ => ⟨ho, hs⟩, fun _ => he⟩

/-- R163, R177, R196: a part that does not track holds nothing, and so may enter any role once it is out of
LOADING. -/
theorem State.enterRole_rolesApart (r : Role) (h : s.rolesApart) (hl : s.cfl.loading = false)
    (ht : s.tracking = false) : (s.enterRole r).rolesApart := by
  obtain ⟨_, horders, hexpects⟩ := h
  obtain ⟨hactive, hshadow⟩ := Bool.or_eq_false_iff.mp ht
  obtain ⟨ho, hs⟩ := horders hactive
  have he := hexpects hshadow
  have hload : ∀ q : Option Role, s.cfl.loading = true → q = none := fun _ h => by simp [hl] at h
  cases r <;> exact State.rolesApart_of_empty (hload _) ho hs he

/-- The tracking blocks build orders in ACTIVE role alone, and expectations in SHADOW role alone. -/
theorem kept_rolesApart : Kept fun s => s.rolesApart where
  out _ _ h := h
  free _ _ h := h
  entry _ _ _ h := h
  places _ _ _ h := h
  gateA _ _ h := h
  fcu _ _ h := h
  lsc _ _ h := h
  head _ _ _ _ h := h
  loader _ _ _ h := h
  stream _ _ _ _ h := h
  jam _ _ _ h := h
  count _ _ _ h := h
  notice _ _ _ h := h
  order s d o hr h := by
    have hl := h.loading_eq hr
    have hr' := (s.isRole_iff _).mp hr
    obtain ⟨_, _, hexpects⟩ := h
    obtain ⟨q, c, heq⟩ := s.enqueueOrder_touches d o
    rw [heq]
    exact State.rolesApart_of_active hl hr' (hexpects (by simp [State.isRole, hr']))
  forget s es hsub h := by
    obtain ⟨hloading, horders, hexpects⟩ := h
    exact ⟨hloading, horders, fun hr => List.sublist_nil.mp (hexpects hr ▸ hsub)⟩
  expect _ s e _ hr _ h := by
    have hl := h.loading_eq hr
    have hr' := (s.isRole_iff _).mp hr
    obtain ⟨_, horders, _⟩ := h
    obtain ⟨ho, hs⟩ := horders (by simp [State.isRole, hr'])
    exact State.rolesApart_of_shadow hl hr' ho hs
  diverged _ _ _ h := h
  unfit _ h := h

/-- R173: the part becomes ACTIVE with its expectations turned into orders. -/
theorem State.takeover_rolesApart (hr : s.isRole .shadow = true) (h : s.rolesApart) : s.takeover.rolesApart := by
  refine State.takeover_kept kept_rolesApart s ?_ (fun _ ht => ht)
  unfold State.expectationsToOrders
  obtain ⟨q, c, heq⟩ := State.enqueueAll_touches s.rol.expectations
    (s.modRol fun r => { r with role := some .active, partnerSeen := none })
  exact heq ▸ State.rolesApart_of_active (h.loading_eq hr) rfl rfl

/-- R175: the part becomes SHADOW with its orders withdrawn. -/
theorem State.demote_rolesApart (n : Node) (hr : s.isRole .active = true) (h : s.rolesApart) :
    (s.demote n).rolesApart :=
  kept_rolesApart.notify _ _ (kept_rolesApart.serveClosing (State.rolesApart_of_shadow
    (s := ((s.modRol fun r => { r with role := some .shadow }).startPartnerSeen).withdrawOrders)
    (h.loading_eq hr) rfl rfl rfl))

/-- R104, R197: the heads, the track unit and the streams cleared; none of them holds an order. -/
theorem State.clearBlocks_rolesApart (h : s.rolesApart) :
    (((s.restartBank).clearTracking).resetStreams).rolesApart := h

theorem State.restartCause_rolesApart (h : s.rolesApart) :
    (s.modCfl fun c => { c with cause := .restart }).rolesApart := h

/-- R197: a line restart leaves the role, and empties both lists before it sends its own orders. -/
theorem State.lineRestart_rolesApart (h : s.rolesApart) : s.lineRestart.rolesApart := by
  obtain ⟨hloading, _, _⟩ := h
  have hempty : ((s.withdrawOrders).dropExpectations).rolesApart :=
    State.rolesApart_of_empty hloading rfl rfl rfl
  have hcleared := State.clearBlocks_rolesApart (kept_rolesApart.restartVents hempty)
  have hrestarted := kept_rolesApart.reportIq 0 (kept_rolesApart.emptyHalt hcleared)
  unfold State.lineRestart
  exact State.restartCause_rolesApart hrestarted

theorem keptServe_rolesApart : KeptServe fun s => s.rolesApart where
  toKept := kept_rolesApart
  line s f hf h := by
    obtain ⟨horders, _, _, houtstanding, _⟩ := hf s.rpt
    simpa [State.rolesApart, State.isRole, horders, houtstanding] using h
  proving _ _ _ _ h := h
  roleParts s f hf h := by
    obtain ⟨hrole, hexpects, _⟩ := hf s.rol
    simpa [State.rolesApart, State.isRole, hrole, hexpects] using h
  fit _ h := h
  pointed _ _ _ _ h := h
  advanced _ _ h := h
  zeroed _ h := h
  dated _ _ _ h := h
  marked _ _ _ _ h := h
  tables _ _ _ _ h := h
  station _ _ _ _ h := h
  takeover _ hr h := State.takeover_rolesApart hr h
  demote _ n hr h := State.demote_rolesApart n hr h
  toTransparent s ht h := by
    have hl : s.cfl.loading = false := by
      obtain hr | hr := Bool.or_eq_true_iff.mp ht <;> exact h.loading_eq hr
    exact State.rolesApart_of_empty (s := s.toTransparent) (fun hl' => by cases hl.symm.trans hl') rfl rfl rfl
  enterRole s r hr h := by
    have hrole := (s.isRole_iff _).mp hr
    exact State.enterRole_rolesApart r h (h.loading_eq hr) (by simp [State.tracking, State.isRole, hrole])
  lineRestart _ h := State.lineRestart_rolesApart h

/-- R196: the part leaves LOADING, where it held no role and so nothing, for its start role. -/
theorem State.endLoading_rolesApart (w : List Half) (h : s.rolesApart) : (s.endLoading w).rolesApart := by
  unfold State.endLoading
  split
  case isFalse => exact h
  case isTrue hl =>
    obtain ⟨hloading, hheld⟩ := h
    have hrole := hloading hl
    have hconfigured : ((s.modPins fun p => { p with memSelect := false }).modCfl fun f =>
        { f with loading := false, defaulted := !signatureValid w, config := configurationOf w }).rolesApart :=
      ⟨fun _ => hrole, hheld⟩
    dsimp only
    split
    · exact State.enterRole_rolesApart _ hconfigured rfl (by simp [State.tracking, State.isRole, hrole])
    · refine State.enterRole_rolesApart _ (kept_rolesApart.notify _ _ hconfigured) ?_ ?_
      · rw [State.notify_cfl]; rfl
      · simp [State.tracking, State.isRole, hrole]

theorem keptExec_rolesApart : KeptExec fun s => s.rolesApart where
  toKeptServe := keptServe_rolesApart
  returned s q h := by
    obtain ⟨hloading, horders, hexpects⟩ := h
    refine ⟨hloading, fun hr => ?_, hexpects⟩
    obtain ⟨ho, hs⟩ := horders hr
    exact ⟨ho, by simp [State.orderReturned, hs]⟩
  lost s k h := by
    obtain ⟨hloading, horders, hexpects⟩ := h
    refine ⟨hloading, fun hr => ?_, hexpects⟩
    obtain ⟨ho, hs⟩ := horders hr
    exact ⟨ho, by simp [hs]⟩
  takenOrder s _ _ _ hready _ h := by
    obtain ⟨hr, _⟩ := s.orderReady_iff.mp hready
    have hrole := (s.isRole_iff _).mp hr
    have hl := h.loading_eq hr
    obtain ⟨_, _, hexpects⟩ := h
    exact State.rolesApart_of_active hl hrole (hexpects (by simp [State.isRole, hrole]))
  takenReply _ _ _ _ h := h
  takenNotice _ _ h := h
  reply _ _ _ h := h
  held _ _ _ _ _ _ := State.rolesApart_of_empty (fun _ => rfl) rfl rfl rfl
  released _ _ _ := State.rolesApart_of_empty (fun _ => rfl) rfl rfl rfl
  unasserted _ _ _ _ _ h := h
  endLoading _ w h := State.endLoading_rolesApart w h

theorem keptAll_rolesApart : KeptAll fun s => s.rolesApart where
  toKeptExec := keptExec_rolesApart
  elapse s h := by
    obtain ⟨hloading, horders, hexpects⟩ := h
    refine ⟨hloading, fun hr => ?_, fun hr => ?_⟩
    · obtain ⟨ho, hs⟩ := horders hr
      exact ⟨ho, by simp [State.elapse, hs]⟩
    · simp [State.elapse, hexpects hr]
  pending _ _ h := h
end

/-- Settles O5: every elementary update, every change of role and every change of power keeps the two apart. -/
theorem stepKeepsOrdersToTheRole : Obligations.StepKeepsOrdersToTheRole :=
  fun _ _ h hs => keptAll_rolesApart.step hs h

/-! ### The takeover -/

section
variable (s : State)

/-- R80: a head that leaves LOADED changes the test bank alone. -/
theorem State.leaveLoaded_bank (n : Nat) : ∃ f, s.leaveLoaded n = s.modTbc f := by
  unfold State.leaveLoaded
  split
  · exact ⟨fun _ => (s.startRamp n).tbc, rfl⟩
  · exact ⟨id, rfl⟩

theorem State.leaveAllLoaded_bank : ∃ f, s.leaveAllLoaded = s.modTbc f := by
  unfold State.leaveAllLoaded
  obtain ⟨f₀, h₀⟩ := s.leaveLoaded_bank 0
  obtain ⟨f₁, h₁⟩ := (s.leaveLoaded 0).leaveLoaded_bank 1
  obtain ⟨f₂, h₂⟩ := ((s.leaveLoaded 0).leaveLoaded 1).leaveLoaded_bank 2
  obtain ⟨f₃, h₃⟩ := (((s.leaveLoaded 0).leaveLoaded 1).leaveLoaded 2).leaveLoaded_bank 3
  exact ⟨f₃ ∘ f₂ ∘ f₁ ∘ f₀, by rw [h₃, h₂, h₁, h₀]; rfl⟩

/-- R162: an ACTIVE part sends the line and feed states it has; the first order changes neither. -/
theorem State.restateLine_active (h : s.isRole .active = true) :
    s.restateLine = (s.send (some broadcast) (if s.lsc.halt.isEmpty then .resume else .halt)).send
      (s.roleNode .induction) (if s.lsc.feed = .hold then .feedHold else .feedGo) := by
  have hfirst : ∀ o, (s.send (some broadcast) o).lsc = s.lsc := by
    intro o
    obtain ⟨q, c, heq⟩ := s.enqueueOrder_touches broadcast o
    simp [State.send, State.tracking, h, heq]
  unfold State.restateLine
  dsimp only
  rw [State.roleNode_congr .induction (s.send_tables _ _), hfirst]
  cases s.lsc.feed <;> rfl

/-- R173: those states are the ones the part had before its heads left LOADED. -/
theorem State.restateLine_leaveAllLoaded (h : s.isRole .active = true) :
    s.leaveAllLoaded.restateLine =
      (s.leaveAllLoaded.send (some broadcast) (if s.lsc.halt.isEmpty then .resume else .halt)).send
        (s.roleNode .induction) (if s.lsc.feed = .hold then .feedHold else .feedGo) := by
  obtain ⟨f, hf⟩ := s.leaveAllLoaded_bank
  rw [hf]
  exact State.restateLine_active (s.modTbc f) h

/-- R173 step 2: with room in the order queue, every expectation becomes an order. -/
theorem State.expectationsToOrders_room (h : s.rpt.orders.length + s.rol.expectations.length ≤ 24) :
    s.expectationsToOrders = State.dropExpectations (s.modRpt fun r =>
      { r with orders := r.orders ++ s.rol.expectations.map fun e => ⟨e.dst, e.order⟩ }) :=
  congrArg State.dropExpectations (State.enqueueAll_room _ s h)

/-- The part that takes over, its heads still in LOADED: ACTIVE, its expectations now orders (R173). -/
def State.takenOver (s : State) : State :=
  { s with
    rpt := { s.rpt with orders := s.rpt.orders ++ s.rol.expectations.map fun e => ⟨e.dst, e.order⟩ }
    rol := { s.rol with role := some .active, partnerSeen := none, expectations := [] } }

/-- R173: the heads start their ramps, the line and feed states are sent again, proving goes off, and TAKEOVER
is issued. -/
theorem State.takeover_room (h : s.rpt.orders.length + s.rol.expectations.length ≤ 24) :
    s.takeover =
      (s.takenOver.leaveAllLoaded.restateLine.proveOff).notify .takeover s.rol.expectations.length := by
  have horders : (s.modRol fun r => { r with role := some .active, partnerSeen := none }).expectationsToOrders =
      s.takenOver := State.expectationsToOrders_room _ h
  unfold State.takeover
  dsimp only
  rw [horders]

/-- R172: the expiry does nothing outside SHADOW role, or with the timer stopped. -/
theorem State.partnerSeenExpired_idle (h : s.isRole .shadow = false ∨ s.rol.partnerSeen = none) :
    s.partnerSeenExpired = s := by
  unfold State.partnerSeenExpired
  split
  · rename_i hr ht
    obtain h | h := h
    · cases h.symm.trans hr
    · cases h.symm.trans ht
  · rfl

/-- R172: the partner is ABSENT, and its timer stopped. -/
def State.partnerAbsent : State → State :=
  State.modRol fun r => { r with partnerSeen := none, partner := { r.partner with presence := .absent } }

/-- R172: the expiry in SHADOW role finds the partner ABSENT, and decides on the takeover. -/
theorem State.partnerSeenExpired_shadow (hr : s.isRole .shadow = true) (ht : s.rol.partnerSeen.isSome = true) :
    s.partnerSeenExpired =
      if s.config.autoTakeover && !s.rol.unfit then s.partnerAbsent.takeover else s.partnerAbsent := by
  obtain ⟨n, hn⟩ := Option.isSome_iff_exists.mp ht
  unfold State.partnerSeenExpired
  rw [hr, hn]
  rfl
end

/-- Settles O37: the timer that does not run, the takeover that is refused, and the takeover. -/
theorem partnerSeenExpiryTakesOver : Obligations.PartnerSeenExpiryTakesOver := by
  intro s
  have hexec : exec .partnerSeenTimerExpiry s = .next (s.setOut []).partnerSeenExpired := rfl
  rw [hexec]
  refine ⟨?runs, fun h => congrArg _ ((s.setOut []).partnerSeenExpired_idle h)⟩
  intro hr ht u
  rw [(s.setOut []).partnerSeenExpired_shadow hr ht]
  refine ⟨fun hrefused => ?refused, ?takes⟩
  case refused =>
    have hno : (s.config.autoTakeover && !s.rol.unfit) = false := by
      obtain h | h := hrefused <;> simp [h]
    exact congrArg _ (if_neg (Bool.eq_false_iff.mp hno))
  case takes =>
    intro hauto hfit hroom v w x
    have hyes : (s.config.autoTakeover && !s.rol.unfit) = true := by simp [hauto, hfit]
    have hover : (s.setOut []).partnerAbsent.takeover =
        (v.leaveAllLoaded.restateLine.proveOff).notify .takeover s.rol.expectations.length :=
      (s.setOut []).partnerAbsent.takeover_room hroom
    have hline : v.leaveAllLoaded.restateLine = x := v.restateLine_leaveAllLoaded rfl
    rw [hline] at hover
    exact congrArg _ ((if_pos hyes).trans hover)

end Sys2Proof.Machine
